-- ==== Sys2Proof/Syntax.lean ====
section
/-! DEFINITION. The commands of the block: one constructor of `Instr` per row of spec/opcode_table.json, with
the row's operands.  What the world outside the module decides (who writes a register, what an expander, an
NVMe controller, a Florix peer, another module or the board answers) is an operand of the command that brings it. -/

namespace Sys2Proof

/-- The number of a logical processor, R4. -/
abbrev LpId := Fin 64
/-- The number of a general or floating register, R54, R55. -/
abbrev Reg := Fin 32
/-- The number of a bank register, R68. -/
abbrev BankNo := Fin 16

/-- An immediate operand: the 16 bits of the short form or the second word of the long form (R84, R101). -/
inductive Imm where
  | short (v : BitVec 16)
  | long (v : BitVec 32)
deriving DecidableEq, Repr

/-- A displacement: 12 bits scaled by the access size (R83), or the unscaled second word of the long form (R84). -/
inductive Disp where
  | short (v : BitVec 12)
  | long (v : BitVec 32)
deriving DecidableEq, Repr

/-- Who makes a register access: a processor of this module, the service port (R655), a JTAG probe (R545), or a processor of
another module at a level (R30). -/
inductive Src where
  | lp (n : LpId)
  | service
  | probe
  | remote (level : BitVec 2)
deriving DecidableEq, Repr

/-- What an expander shows at training (R319 to R322, R346).  `speed` is in GT/s. -/
structure Expander where
  speed : Nat
  lanes : Nat
  kindOk : Bool
  poisonOk : Bool
  identOk : Bool
  gpfOk : Bool
  serial : Word
  capacity : Nat
  dsc : BitVec 32
deriving DecidableEq, Repr

/-- One signed section of a Gresum image (R588); `offset` and `bytes` are its directory entry (R585). -/
structure Section where
  dirType : Byte
  offset : Nat
  bytes : Nat
  type : Byte
  major : Byte
  minor : Byte
  signer : Bool
  svn : BitVec 16
  device : BitVec 16
  key : List Byte
  signature : List Byte
  body : List Byte
deriving DecidableEq, Repr

/-- One Gresum image: its unsigned header (R585) and its sections in directory order. -/
structure Image where
  magic : BitVec 32
  major : Byte
  minor : Byte
  device : BitVec 16
  generation : Word
  imageBytes : BitVec 32
  zeroFields : Bool
  sections : List Section
deriving DecidableEq, Repr

/-- The external flash at a start (R584, R585): each slot's image, or `none` where the read failed. -/
structure Flash where
  a : Option Image
  b : Option Image
deriving DecidableEq, Repr

/-- What a start finds outside the main-domain logic: the flash, the landing-store stacks that pass their test
(R374), the dies whose regulators report ULINEAR16 (R641), the twins that pass the comparator self-test (R231), the fresh nonce (R543), whether the anchor digests
are correctable (R531), and whether every landed line authenticates (R381). -/
structure StartInput where
  flash : Flash
  stacksOk : BitVec 4
  ulinear : BitVec 4
  goodTwins : BitVec 64
  nonce : BitVec 128
  otpOk : Bool
  sealOk : Bool
deriving DecidableEq, Repr

/-- What the far end of a causeway link shows in the identity exchange (R275).  `lanes` names the lanes that trained,
`beyond` the modules reached through the partner, `ring` whether they close a ring with this module (R276, R286). -/
structure CwyPeer where
  lanes : BitVec 16
  stepping : BitVec 8
  part : BitVec 4
  modid : BitVec 3
  link : BitVec 2
  versions : List Byte
  timebase : Word
  beyond : BitVec 8
  ring : Bool
deriving DecidableEq, Repr

/-- The header of an arriving Florix frame (R462), the link it arrives on, and whether its must-be-zero bits
are 0 and its CCM tag, where it has one, verifies (R480). -/
structure FlxHdr where
  link : Fin 16
  prot : Bool
  ackv : Bool
  zeroOk : Bool
  tagOk : Bool
  version : Byte
  dst : BitVec 12
  src : BitVec 12
  seq : BitVec 48
  ack : BitVec 48
  sack : BitVec 16
  epoch : BitVec 32
deriving DecidableEq, Repr

/-- The payload of HELLO and HELLO_ACK (R470). -/
structure FlxHello where
  minver : Byte
  maxver : Byte
  rejoin : Bool
  protect : Bool
  ident : Word
  epoch : BitVec 32
deriving DecidableEq, Repr

/-- The request header of WRITE, READ_REQ and READ_DATA (R464). -/
structure FlxReq where
  rqn : BitVec 48
  window : BitVec 8
  key : Word
  woff : BitVec 48
  rlen : BitVec 32
  roff : BitVec 32
deriving DecidableEq, Repr

/-- A snoop response (R256, R257). -/
inductive Resp where
  | miss
  | hit
  | dataClean
  | dataDirty
  | wbPending
deriving DecidableEq, Repr

/-- A JTAG probe access (R545, R657). -/
inductive Probe where
  | readCtl (off : BitVec 32)
  | writeCtl (off : BitVec 32) (v : Word)
  | readMem (addr : BitVec 52)
  | writeMem (addr : BitVec 52) (v : Byte)
  | readG (lp : LpId) (slip : Fin 8) (r : Reg)
  | writeG (lp : LpId) (slip : Fin 8) (r : Reg) (v : Word)
  | readF (lp : LpId) (slip : Fin 8) (r : Reg)
  | writeF (lp : LpId) (slip : Fin 8) (r : Reg) (v : Word)
  | readU (lp : LpId) (r : Fin 64)
  | writeU (lp : LpId) (r : Fin 64) (v : Word)
  | readStore (off : BitVec 34)
  | writeStore (off : BitVec 34) (v : Byte)
  | idcode
  | bypass
  | samplePreload
  | extest
deriving DecidableEq, Repr

/-- The commands of the block, in the order of spec/opcode_table.json. -/
inductive Instr where
  -- integer operations, R99
  | add (lp : LpId) (d s1 s2 : Reg)
  | sub (lp : LpId) (d s1 s2 : Reg)
  | and (lp : LpId) (d s1 s2 : Reg)
  | or (lp : LpId) (d s1 s2 : Reg)
  | xor (lp : LpId) (d s1 s2 : Reg)
  | andn (lp : LpId) (d s1 s2 : Reg)
  | sll (lp : LpId) (d s1 s2 : Reg)
  | srl (lp : LpId) (d s1 s2 : Reg)
  | sra (lp : LpId) (d s1 s2 : Reg)
  | ror (lp : LpId) (d s1 s2 : Reg)
  | cmpeq (lp : LpId) (d s1 s2 : Reg)
  | cmplt (lp : LpId) (d s1 s2 : Reg)
  | cmpltu (lp : LpId) (d s1 s2 : Reg)
  | sextb (lp : LpId) (d s1 : Reg)
  | sexth (lp : LpId) (d s1 : Reg)
  | sextw (lp : LpId) (d s1 : Reg)
  | clz (lp : LpId) (d s1 : Reg)
  | popc (lp : LpId) (d s1 : Reg)
  | min (lp : LpId) (d s1 s2 : Reg)
  | max (lp : LpId) (d s1 s2 : Reg)
  | minu (lp : LpId) (d s1 s2 : Reg)
  | maxu (lp : LpId) (d s1 s2 : Reg)
  -- multiplier and divider, R103
  | mul (lp : LpId) (d s1 s2 : Reg)
  | mulh (lp : LpId) (d s1 s2 : Reg)
  | mulhu (lp : LpId) (d s1 s2 : Reg)
  | div (lp : LpId) (d s1 s2 : Reg)
  | divu (lp : LpId) (d s1 s2 : Reg)
  | rem (lp : LpId) (d s1 s2 : Reg)
  | remu (lp : LpId) (d s1 s2 : Reg)
  -- immediate forms, R101, R87, R88
  | addi (lp : LpId) (d s1 : Reg) (imm : Imm)
  | andi (lp : LpId) (d s1 : Reg) (imm : Imm)
  | ori (lp : LpId) (d s1 : Reg) (imm : Imm)
  | xori (lp : LpId) (d s1 : Reg) (imm : Imm)
  | ldi (lp : LpId) (d : Reg) (imm : Imm)
  | shi (lp : LpId) (d s1 : Reg) (kind : BitVec 2) (amount : BitVec 6)
  | callm (lp : LpId) (t : Reg) (mask : BitVec 16)
  | retm (lp : LpId) (mask : BitVec 16)
  -- branches, R102
  | br (lp : LpId) (off : BitVec 21)
  | bz (lp : LpId) (r : Reg) (off : BitVec 21)
  | bnz (lp : LpId) (r : Reg) (off : BitVec 21)
  | bltz (lp : LpId) (r : Reg) (off : BitVec 21)
  | bgez (lp : LpId) (r : Reg) (off : BitVec 21)
  | bal (lp : LpId) (r : Reg) (off : BitVec 21)
  | jmp (lp : LpId) (r : Reg)
  | dbnz (lp : LpId) (r : Reg) (off : BitVec 21)
  -- loads and stores, R108
  | ldb (lp : LpId) (t base : Reg) (bank : BankNo) (disp : Disp)
  | ldh (lp : LpId) (t base : Reg) (bank : BankNo) (disp : Disp)
  | ldw (lp : LpId) (t base : Reg) (bank : BankNo) (disp : Disp)
  | ldd (lp : LpId) (t base : Reg) (bank : BankNo) (disp : Disp)
  | stb (lp : LpId) (t base : Reg) (bank : BankNo) (disp : Disp)
  | sth (lp : LpId) (t base : Reg) (bank : BankNo) (disp : Disp)
  | stw (lp : LpId) (t base : Reg) (bank : BankNo) (disp : Disp)
  | std (lp : LpId) (t base : Reg) (bank : BankNo) (disp : Disp)
  | ldfs (lp : LpId) (t base : Reg) (bank : BankNo) (disp : Disp)
  | ldf (lp : LpId) (t base : Reg) (bank : BankNo) (disp : Disp)
  | stfs (lp : LpId) (t base : Reg) (bank : BankNo) (disp : Disp)
  | stf (lp : LpId) (t base : Reg) (bank : BankNo) (disp : Disp)
  | ldpair (lp : LpId) (t base : Reg) (bank : BankNo) (disp : Disp)
  | stpair (lp : LpId) (t base : Reg) (bank : BankNo) (disp : Disp)
  -- atomics and reservations, R111; `dbl` is the 8-byte size
  | lrsv (lp : LpId) (d s1 : Reg) (bank : BankNo) (dbl : Bool)
  | stcond (lp : LpId) (d s1 : Reg) (bank : BankNo) (dbl : Bool)
  | swap (lp : LpId) (d s1 : Reg) (bank : BankNo) (dbl : Bool)
  | aadd (lp : LpId) (d s1 : Reg) (bank : BankNo) (dbl : Bool)
  | aand (lp : LpId) (d s1 : Reg) (bank : BankNo) (dbl : Bool)
  | aor (lp : LpId) (d s1 : Reg) (bank : BankNo) (dbl : Bool)
  | axor (lp : LpId) (d s1 : Reg) (bank : BankNo) (dbl : Bool)
  | cas (lp : LpId) (d s1 : Reg) (bank : BankNo) (dbl : Bool)
  -- floating point, R115, R116; `p` is the precision bit: true is binary32
  | fadd (lp : LpId) (d s1 s2 : Reg) (p : Bool)
  | fsub (lp : LpId) (d s1 s2 : Reg) (p : Bool)
  | fmul (lp : LpId) (d s1 s2 : Reg) (p : Bool)
  | fdiv (lp : LpId) (d s1 s2 : Reg) (p : Bool)
  | fsqrt (lp : LpId) (d s1 : Reg) (p : Bool)
  | fma (lp : LpId) (d s1 s2 : Reg) (p : Bool)
  | fms (lp : LpId) (d s1 s2 : Reg) (p : Bool)
  | fnma (lp : LpId) (d s1 s2 : Reg) (p : Bool)
  | fmin (lp : LpId) (d s1 s2 : Reg) (p : Bool)
  | fmax (lp : LpId) (d s1 s2 : Reg) (p : Bool)
  | fneg (lp : LpId) (d s1 : Reg) (p : Bool)
  | fabs (lp : LpId) (d s1 : Reg) (p : Bool)
  | fcmpeq (lp : LpId) (d s1 s2 : Reg) (p : Bool)
  | fcmplt (lp : LpId) (d s1 s2 : Reg) (p : Bool)
  | fcmple (lp : LpId) (d s1 s2 : Reg) (p : Bool)
  | fclass (lp : LpId) (d s1 : Reg) (p : Bool)
  | fcvtf (lp : LpId) (d s1 : Reg) (p : Bool)
  | fcvti (lp : LpId) (d s1 : Reg) (p : Bool)
  | fcvtiu (lp : LpId) (d s1 : Reg) (p : Bool)
  | icvtf (lp : LpId) (d s1 : Reg) (p : Bool)
  | iucvtf (lp : LpId) (d s1 : Reg) (p : Bool)
  | movgf (lp : LpId) (d s1 : Reg)
  | movfg (lp : LpId) (d s1 : Reg)
  -- packed decimal, R125; `len` is L
  | pka (lp : LpId) (d s1 s2 : Reg) (len : BitVec 5)
  | pks (lp : LpId) (d s1 s2 : Reg) (len : BitVec 5)
  -- one step of a resumable long instruction, R128
  | movl (lp : LpId) (d s1 s2 : Reg) (p q : BankNo)
  | cmpl (lp : LpId) (d s1 s2 : Reg) (p q : BankNo)
  | trnl (lp : LpId) (d s1 s2 : Reg) (p q : BankNo)
  | cksm (lp : LpId) (d s1 s2 : Reg) (p q : BankNo)
  -- system group and level call, R133, R134
  | mtc (lp : LpId) (c : BitVec 6) (s1 : Reg)
  | mfc (lp : LpId) (d : Reg) (c : BitVec 6)
  | mtb (lp : LpId) (b : BankNo) (s1 : Reg)
  | mfb (lp : LpId) (d : Reg) (b : BankNo)
  | rfl (lp : LpId)
  | lvc (lp : LpId) (target : BitVec 2) (service : BitVec 16)
  | fence (lp : LpId)
  | dsync (lp : LpId)
  | iosync (lp : LpId)
  -- timetable and slips, R171
  | spill (lp : LpId) (n : Fin 8)
  | fill (lp : LpId) (s1 : Reg) (n : Fin 8)
  | rdslip (lp : LpId) (d : Reg) (n : Fin 8) (r : Fin 64)
  | ttbind (lp : LpId) (d s1 s2 : Reg)
  | ttwait (lp : LpId)
  | ttyield (lp : LpId)
  | signal (lp : LpId) (d s1 : Reg)
  | timer (lp : LpId) (s1 : Reg)
  -- one step of a cache-maintenance instruction, R250; `x` is the selector X
  | cwb (lp : LpId) (d s1 : Reg) (b : BankNo)
  | cinv (lp : LpId) (d s1 : Reg) (b : BankNo)
  | clock (lp : LpId) (d s1 : Reg) (b : BankNo) (x : Bool)
  | cunlock (lp : LpId) (d s1 : Reg) (b : BankNo) (x : Bool)
  | ctouch (lp : LpId) (d : Reg) (b : BankNo) (x : Bool)
  | czero (lp : LpId) (d : Reg) (b : BankNo)
  -- micro-routines: `word` is bits 25:0 of the instruction, `budget` the words issued by this command
  | customInstruction (lp : LpId) (word : BitVec 26) (budget : Nat)
  | forerunnerInstruction (lp : LpId) (word : BitVec 32) (budget : Nat)
  | ucFaultClear (src : Src)
  -- exceptions taken at a boundary, R145
  | interrupt (lp : LpId)
  | busDeferred (lp : LpId)
  | singleStep (lp : LpId)
  | slipOverflow (lp : LpId)
  | linesLost (lp : LpId)
  -- events, timetable, timers and processor orders
  | evtRaise (src : Src) (v : Word)
  | wakeDelivery (source : Fin 4096)
  | slipSwitch (lp : LpId)
  | hardwareFill (lp : LpId)
  | lpTimerWrite (src : Src) (lp : LpId) (v : Word)
  | lpTimerFire (lp : LpId)
  | stop (src : Src) (lp : LpId)
  | start (src : Src) (lp : LpId)
  | restart (src : Src) (lp : LpId)
  -- checked execution; `diff` is the difference of the two lanes' signatures
  | windowClose (lp : LpId)
  | windowCompare (lp : LpId) (diff : Word)
  | lpStop (lp : LpId)
  | debugHalt (lp : LpId)
  | l2DrainDone (lp : LpId) (lost : List (BitVec 44))
  | spareTwinReady (lp : LpId)
  | stateTransferDone (lp : LpId)
  -- coherence requests at a home; `req` is the deck-wide requester number, `line` a line number (address / 256)
  | rds (req : BitVec 10) (line : BitVec 44)
  | rdo (req : BitVec 10) (line : BitVec 44)
  | upg (req : BitVec 10) (line : BitVec 44)
  | rdoz (req : BitVec 10) (line : BitVec 44)
  | rdcur (req : BitVec 10) (line : BitVec 44)
  | wrinvf (req : BitVec 10) (line : BitVec 44) (data : List Byte)
  | wrinvp (req : BitVec 10) (line : BitVec 44) (off : BitVec 8) (data : List Byte)
  | clean (req : BitVec 10) (line : BitVec 44)
  | inv (req : BitVec 10) (line : BitVec 44)
  | wbk (req : BitVec 10) (line : BitVec 44) (data : List Byte) (poison : Bool)
  -- snoops reaching an agent of this module (R256)
  | snpshared (agent : Fin 128) (line : BitVec 44)
  | snpown (agent : Fin 128) (line : BitVec 44)
  | snpcur (agent : Fin 128) (line : BitVec 44)
  | snpinv (agent : Fin 128) (line : BitVec 44)
  | snpinvf (agent : Fin 128) (line : BitVec 44)
  | snpclean (agent : Fin 128) (line : BitVec 44)
  -- the answer of an agent (of another module: with its response and data) reaching the home
  | snoopResponse (agent : BitVec 10) (line : BitVec 44) (resp : Resp) (data : List Byte)
  | homeCompletion (req : BitVec 10) (line : BitVec 44)
  | dat (req : BitVec 10) (line : BitVec 44)
  | wbkAck (agent : Fin 128) (line : BitVec 44)
  | requestResend (req : BitVec 10) (line : BitVec 44)
  | ticketExpiry (port : Fin 16)
  | mooringEnd (agent : Fin 128) (line : BitVec 44)
  | manifestError (port : Fin 16) (set : BitVec 17)
  | manifestRebuildDone (port : Fin 16) (set : BitVec 17)
  -- cache control
  | cacheEnableWrite (src : Src) (off : BitVec 32) (v : Word)
  | cacheDrained (agent : Fin 128)
  | lockWaysWrite (src : Src) (off : BitVec 32) (v : Word)
  -- causeway links
  | causewayLinkTrained (link : Fin 4) (peer : CwyPeer)
  | causewayTrainTimeout (link : Fin 4)
  | causewayLinkDown (link : Fin 4)
  -- device accesses
  -- (of the k-th oldest posted store, or of the one the LP waits for)
  | deviceStoreCompletion (lp : LpId) (posted : Option Nat) (busError : Bool)
  | deviceLoadData (lp : LpId) (data : Word) (busError : Bool)
  | postedStoreTimeout (lp : LpId)
  | deviceAccessTimeout (lp : LpId)
  -- memory ports; `dev` is a line's device address / 256
  | pmLinkTrained (port : Fin 16) (exp : Expander)
  | pmTrainTimeout (port : Fin 16)
  | pmLinkDown (port : Fin 16)
  | pmRequestTimeout (port : Fin 16)
  | mediaEventRecord (port : Fin 16) (fatal : Bool)
  | memoryReadData (port : Fin 16) (dev : BitVec 32) (data : Option (List Byte)) (check : Option (BitVec 32)) (poison : Bool)
  | memoryWriteCmp (port : Fin 16) (dev : BitVec 32)
  | pmPoison (src : Src) (port : Fin 16) (v : Word)
  | sweeperEpoch
  | scrubLine (port : Fin 16)
  -- landing
  | pwrfailLow
  | pwrfailRise
  | pwrfailHighWait (si : StartInput)
  | warmReturnExpiry (si : StartInput)
  | landRequest (src : Src)
  | outputsQuiesced
  | recall (modid : Fin 8)
  | recallDone (modid : Fin 8)
  | recallTimeout
  | lineWritebackDone
  | left (modid : Fin 8)
  | wbkAckTimeout (line : BitVec 44)
  | gpfPhase1Response (port : Fin 16)
  | gpfPhase2Response (port : Fin 16) (dsc : BitVec 32)
  | landingSealed
  -- pins and starts
  | pwrgoodFall
  | pwrgoodRise (modid : Fin 8) (si : StartInput)
  | modrstAssert
  | modrstRelease (si : StartInput)
  | flashReadTimeout (slot : Bool)
  | keelcodeLoad
  | resumeCommit
  | landElapsedWrite (v : Word)
  | timebaseMark
  | harbourExit (src : Src)
  -- management-function commands (R410) and virtual channel functions
  | vcfEnable (src : Src) (vcf : Fin 1023) (arg0 arg1 : Word)
  | vcfDisable (src : Src) (vcf : Fin 1023)
  | qpGrant (src : Src) (vcf : Fin 1023) (arg0 : Word)
  | qpReclaim (src : Src) (vcf : Fin 1023) (arg0 : Word)
  | vecGrant (src : Src) (vcf : Fin 1023) (arg0 : Word)
  | vecReclaim (src : Src) (vcf : Fin 1023) (arg0 : Word)
  | setShare (src : Src) (vcf : Fin 1023) (arg0 : Word)
  | tgtSync (src : Src) (vcf : Fin 1023)
  | funcAssign (src : Src) (arg0 : Word)
  | funcRelease (src : Src) (arg0 : Word)
  | vcfOpen (src : Src) (vcf : Fin 1023) (v : Word)
  | vcfClose (src : Src) (vcf : Fin 1023)
  | qcreate (src : Src) (vcf : Fin 1023) (qp : Fin 256)
  | qdelete (src : Src) (vcf : Fin 1023) (qp : Fin 256)
  | query (src : Src) (vcf : Fin 1023) (qp : Fin 256)
  | sqDoorbell (vcf : Fin 1023) (qp : Fin 256) (tail : BitVec 16)
  | cqDoorbell (vcf : Fin 1023) (qp : Fin 256) (head : BitVec 16)
  -- descriptors: `pool` is the pool index of the queue pair (R409); `op` an index into the journal (R432)
  | descriptorFetch (pool : Fin 16384)
  | descriptorAccept (pool : Fin 16384)
  | nop (op : BitVec 22)
  | read (op : BitVec 22)
  | write (op : BitVec 22)
  | mirrorWrite (op : BitVec 22)
  | copy (op : BitVec 22)
  | compress (op : BitVec 22)
  | decompress (op : BitVec 22)
  | cipher (op : BitVec 22)
  | chain (op : BitVec 22)
  | barrier (op : BitVec 22)
  | stepComplete (op : BitVec 22)
  | completionAccepted (op : BitVec 22)
  | coalesceTimeout (pool : Fin 16384)
  -- NVMe and PCIe
  | nvmeCompletion (op : BitVec 22) (sct : BitVec 3) (sc : BitVec 8)
  | nvmeTimeout (op : BitVec 22)
  | controllerResetDone (ctrlr : Fin 64) (verified : Bool)
  | pathWaitExpiry (op : BitVec 22)
  | nvmeUpstreamAccess (ctrlr : Fin 64) (write : Bool) (addr : BitVec 52) (data : List Byte) (len : Nat)
  | upstreamDma (func : Fin 64) (write : Bool) (addr : BitVec 52) (data : List Byte) (len : Nat) (poison : Bool)
  -- Florix commands and frames
  | xsync (src : Src) (x : Fin 4096)
  | xopen (src : Src) (x : Fin 4096)
  | xclose (src : Src) (x : Fin 4096)
  | xquery (src : Src) (x : Fin 4096)
  | hello (h : FlxHdr) (p : FlxHello)
  | helloAck (h : FlxHdr) (p : FlxHello)
  | refuse (h : FlxHdr) (reason : Byte)
  | close (h : FlxHdr)
  | flxWrite (h : FlxHdr) (r : FlxReq) (data : List Byte)
  | readReq (h : FlxHdr) (r : FlxReq)
  | readData (h : FlxHdr) (r : FlxReq) (data : List Byte)
  | flxStatus (h : FlxHdr) (rqn : BitVec 48) (status : Byte) (count : BitVec 32)
  | ack (h : FlxHdr)
  | keepalive (h : FlxHdr)
  | notice (h : FlxHdr) (kind : Byte)
  | flxRequestDone (x : Fin 4096) (rqn : BitVec 48)
  | keepaliveDue (x : Fin 4096)
  | retransmitTimeout (x : Fin 4096) (seq : BitVec 48)
  | lossLimitExpiry (x : Fin 4096)
  | landingWaitExpiry (x : Fin 4096)
  | helloResend (x : Fin 4096)
  | rejoinTimer (x : Fin 4096)
  | linkReturnTimer (x : Fin 4096)
  | flxLinkDown (link : Fin 16)
  | flxLinkUp (link : Fin 16)
  -- cipher engine ownership
  | cipClaim (src : Src) (engine : Fin 16) (v : BitVec 16)
  | cipRelease (src : Src) (engine : Fin 16)
  | force (src : Src) (engine : Fin 16)
  -- root of trust
  | rtuClaim (src : Src) (v : BitVec 2)
  | getStatus (src : Src)
  | attest (src : Src)
  | aliasCert (src : Src)
  | idCert (src : Src)
  | debugOpen (src : Src)
  | debugClose (src : Src)
  | provision (src : Src)
  | deploy (src : Src)
  | retire (src : Src)
  | factoryReset (src : Src)
  | svnCommit (src : Src)
  | wrap (src : Src)
  | wrapRandom (src : Src)
  -- fault collector; FAULT_EVENT brings the events that reach the collector in one fault-clock cycle
  | faultEvent (events : List (Fin 2048 × BitVec 32))
  | holdQuietExpiry (si : StartInput)
  | fenceQuietExpiry (source : Fin 2048) (pass : Bool) (exp : Expander) (peer : CwyPeer)
  | recoveryDecay
  | collectorError
  | faultClockStop
  | fcInject (src : Src) (v : Word)
  | fcRaise (src : Src) (v : Word)
  | fcSrcCfgWrite (src : Src) (source : Fin 2048) (v : Word)
  -- thermal and power readings, in °C and W
  | thermUpdate (c0 c1 c2 c3 hub ls : Int)
  | powerUpdate (c0 c1 c2 c3 hub : Nat)
  | thermtrip
  | thermalShutdown
  -- tally
  | watchBoundary
  | snap (src : Src)
  | watchUsWrite (src : Src) (v : BitVec 24)
  | dumpComplete
  | tallySelWrite (src : Src) (n : Fin 800) (v : Word)
  | tallyRingWrite (src : Src) (count : Bool) (v : Word)
  | sampleCarry (lp : LpId) (k : Fin 8)
  -- PMBus; voltages in mV, clocks in MHz
  | laneClockSet (src : Src) (twin : Fin 64) (mhz : Nat)
  | voutPoll (die : Fin 4) (mv : Nat)
  | pmbusAlert (die : Fin 4) (status : BitVec 16)
  | pmbusTimeout (die : Fin 4)
  | pmbusArbitrationRetry (die : Fin 4)
  | standbyLoss
  -- service port and JTAG
  | svcSetAddr (off : BitVec 32)
  | svcWrite (v : Word)
  | svcRead
  | svcPrivateRead (count : Nat)
  | setdasa (addr : BitVec 7)
  | entdaa (addr : BitVec 7)
  | tapReset
  | rcRead (src : Src) (off : BitVec 32)
  | registerWrite (src : Src) (off : BitVec 32) (v : Word)
  | undefinedInstruction (lp : LpId) (w0 w1 : BitVec 32)
  | pcieLinkUp (link : Fin 16) (speed : BitVec 3) (width : BitVec 5)
  | pcieLinkDown (link : Fin 16)
  | controllerFatalStatus (ctrlr : Fin 64)
  | debugHaltEnd (lp : LpId)
  | jtagProbeAccess (acc : Probe)
  | waitOnTimer (lp : LpId)
  | standbyReturn
  | landingStoreWriteAck (stack : Fin 4)
  | nonFlorixFrame (link : Fin 16)
deriving DecidableEq, Repr

end Sys2Proof
end

