-- ==== Sys2Proof/Machine/Map.lean ====
section
/-! DEFINITION. Sparse data by key: a list of (key, value) pairs with strictly rising keys, no pair holding the value
an unlisted key reads as.  Memory, control registers and every other large table of the module are held so. -/

namespace Sys2Proof.Machine

/-- A sparse table.  An unlisted key reads as the default its reader names. -/
abbrev Map (α : Type) := List (Nat × α)

/-- The value at key `k`, `d` where the table lists none. -/
def Map.get {α : Type} : Map α → Nat → α → α
  | [], _, d => d
  | (k', v) :: r, k, d => if k' = k then v else Map.get r k d

/-- The table without key `k`. -/
def Map.erase {α : Type} : Map α → Nat → Map α
  | [], _ => []
  | (k', v) :: r, k => if k' = k then r else (k', v) :: Map.erase r k

/-- The table with `v` at key `k`, kept in rising order. -/
def Map.insert {α : Type} : Map α → Nat → α → Map α
  | [], k, v => [(k, v)]
  | (k', v') :: r, k, v =>
    if k < k' then (k, v) :: (k', v') :: r
    else if k = k' then (k, v) :: r
    else (k', v') :: Map.insert r k v

/-- Writes `v` at key `k`; writing the value `d` an unlisted key reads as removes the entry. -/
def Map.put {α : Type} [DecidableEq α] (m : Map α) (k : Nat) (v d : α) : Map α :=
  if v = d then m.erase k else m.insert k v

/-- Strictly rising keys. -/
def Map.sorted {α : Type} : Map α → Bool
  | [] => true
  | (k, _) :: r => (match r with | [] => true | (k', _) :: _ => decide (k < k')) && Map.sorted r

/-- The canonical form: keys strictly rising, no entry equal to the default `d`. -/
def Map.wf {α : Type} [DecidableEq α] (m : Map α) (d : α) : Bool :=
  m.sorted && m.all (fun e => !decide (e.2 = d))

/-- Memory: sparse bytes; an unlisted byte reads 0. -/
abbrev Memory := Map Byte

/-- The canonical form of memory. -/
def Memory.wf (m : Memory) : Bool := Map.wf m (0 : Byte)

/-- One byte of memory. -/
def Memory.byte (m : Memory) (a : Nat) : Byte := m.get a 0

/-- Writes one byte. -/
def Memory.setByte (m : Memory) (a : Nat) (v : Byte) : Memory := m.put a v 0

/-- The `n` bytes from `a` on. -/
def Memory.bytes (m : Memory) (a : Nat) : Nat → List Byte
  | 0 => []
  | n + 1 => m.byte a :: m.bytes (a + 1) n

/-- Writes a list of bytes from `a` on. -/
def Memory.setBytes (m : Memory) (a : Nat) : List Byte → Memory
  | [] => m
  | v :: r => (m.setByte a v).setBytes (a + 1) r

/-- A little-endian number of bytes (R11). -/
def leNat : List Byte → Nat
  | [] => 0
  | b :: r => b.toNat + 256 * leNat r

/-- A little-endian word of up to eight bytes. -/
def leWord (l : List Byte) : Word := BitVec.ofNat 64 (leNat l)

/-- The low `n` bytes of `v`, least significant first (R11). -/
def toBytes (v : Nat) : Nat → List Byte
  | 0 => []
  | n + 1 => BitVec.ofNat 8 v :: toBytes (v / 256) n

/-- The eight bytes of a doubleword. -/
def wordBytes (w : Word) : List Byte := toBytes w.toNat 8

/-- Bits `hi`:`lo` of a word, as a number (R11). -/
def bits (w : Word) (hi lo : Nat) : Nat := (w.toNat >>> lo) % 2 ^ (hi + 1 - lo)

/-- Bit `i` of a word. -/
def bit (w : Word) (i : Nat) : Bool := w.toNat.testBit i

/-- A word whose bits `hi`:`lo` are `v`, the others 0. -/
def field (hi lo v : Nat) : Word := BitVec.ofNat 64 ((v % 2 ^ (hi + 1 - lo)) <<< lo)

/-- The word `w` with bits `hi`:`lo` replaced by `v`. -/
def setBits (w : Word) (hi lo v : Nat) : Word :=
  (w &&& ~~~ field hi lo (2 ^ (hi + 1 - lo) - 1)) ||| field hi lo v

/-- A flag as a number. -/
def b2n (b : Bool) : Nat := if b then 1 else 0

/-- A flag as a word. -/
def b2w (b : Bool) : Word := if b then 1 else 0

/-- The list with element `i` replaced. -/
def listSet {α : Type} : List α → Nat → α → List α
  | [], _, _ => []
  | _ :: r, 0, v => v :: r
  | a :: r, i + 1, v => a :: listSet r i v

end Sys2Proof.Machine
end

