-- ==== Sys2Proof/Machine/Aes.lean ====
section
/-! DEFINITION. AES (FIPS 197) and the modes of the cipher engines (R511): CBC, CTR, CFB-128, OFB, CMAC, CCM, and the key
unwrap of RFC 3394 (R510, R512).  PRESUMED: the spec names these standards (log 14). -/

namespace Sys2Proof.Machine

/-- Doubling in the AES field. -/
def gfDouble (a : Byte) : Byte := (a <<< 1) ^^^ (if a.getLsbD 7 then 0x1B else 0)

/-- Multiplication in the AES field. -/
def gfMul : Nat → Byte → Byte → Byte
  | 0, _, _ => 0
  | n + 1, a, b => (if b.getLsbD 0 then a else 0) ^^^ gfMul n (gfDouble a) (b >>> 1)

/-- The square of a field element. -/
def gfSq (a : Byte) : Byte := gfMul 8 a a

/-- The inverse of a field element, 0 for 0: a to the 254th power. -/
def gfInv (a : Byte) : Byte :=
  let m := gfMul 8
  let a2 := gfSq a
  let a3 := m a2 a
  let a6 := gfSq a3
  let a12 := gfSq a6
  let a15 := m a12 a3
  let a240 := gfSq (gfSq (gfSq (gfSq a15)))
  m (m a240 a12) a2

/-- The AES substitution. -/
def sbox (a : Byte) : Byte :=
  let b := gfInv a
  b ^^^ b.rotateLeft 1 ^^^ b.rotateLeft 2 ^^^ b.rotateLeft 3 ^^^ b.rotateLeft 4 ^^^ 0x63

/-- Its inverse. -/
def sboxInv (a : Byte) : Byte := gfInv (a.rotateLeft 1 ^^^ a.rotateLeft 3 ^^^ a.rotateLeft 6 ^^^ 0x05)

/-- Bytewise exclusive or. -/
def xorBytes (a b : List Byte) : List Byte := List.zipWith (· ^^^ ·) a b

/-- A 16-byte block of zeros. -/
def zeroBlock : List Byte := List.replicate 16 0

/-- The next word of the key schedule, from the last `nk` words, newest first. -/
def keyWord (nk i : Nat) (rcon : Byte) (prev : List (List Byte)) : List Byte :=
  let t := prev.headD []
  let t := if i % nk = 0 then
      match t.map sbox with
      | a :: r => xorBytes (r ++ [a]) [rcon, 0, 0, 0]
      | [] => []
    else if 6 < nk ∧ i % nk = 4 then t.map sbox else t
  xorBytes (prev.getD (nk - 1) []) t

/-- The key schedule, newest word first. -/
def keyWords (nk : Nat) : Nat → Nat → Byte → List (List Byte) → List (List Byte)
  | 0, _, _, acc => acc
  | n + 1, i, rcon, acc =>
    keyWords nk n (i + 1) (if i % nk = 0 then gfDouble rcon else rcon) (keyWord nk i rcon acc :: acc)

/-- Cuts a list into pieces of `k`. -/
def chunks (k : Nat) : Nat → List Byte → List (List Byte)
  | 0, _ => []
  | _, [] => []
  | n + 1, l => l.take k :: chunks k n (l.drop k)

/-- The round keys of a 16, 24 or 32-byte key, 16 bytes each. -/
def roundKeys (key : List Byte) : List (List Byte) :=
  let nk := key.length / 4
  let ws := keyWords nk (4 * (nk + 7) - nk) nk 1 ((chunks 4 nk key).reverse)
  chunks 16 (nk + 7) ws.reverse.flatten

/-- Rows shifted left by `d` times their number. -/
def shiftRows (d : Nat) (s : List Byte) : List Byte :=
  (List.range 16).map (fun i => s.getD (i % 4 + 4 * ((i / 4 + d * (i % 4)) % 4)) 0)

/-- One column times a circulant matrix. -/
def mixCol (m : List Byte) (c : List Byte) : List Byte :=
  (List.range 4).map (fun i => (List.range 4).foldl (fun a j => a ^^^ gfMul 8 (m.getD ((j + 4 - i) % 4) 0) (c.getD j 0)) 0)

/-- Every column times a circulant matrix. -/
def mixCols (m : List Byte) (s : List Byte) : List Byte := ((chunks 4 4 s).map (mixCol m)).flatten

/-- One block encrypted under round keys. -/
def aesEncR : List (List Byte) → List Byte → List Byte
  | [], s => s
  | [k], s => xorBytes (shiftRows 1 (s.map sbox)) k
  | k :: r, s => aesEncR r (xorBytes (mixCols [2, 3, 1, 1] (shiftRows 1 (s.map sbox))) k)

/-- One block encrypted. -/
def aesEnc (key block : List Byte) : List Byte :=
  match roundKeys key with
  | k :: r => aesEncR r (xorBytes block k)
  | [] => block

/-- One block decrypted under round keys, last first. -/
def aesDecR : List (List Byte) → List Byte → List Byte
  | [], s => s
  | [k], s => xorBytes ((shiftRows 3 s).map sboxInv) k
  | k :: r, s => aesDecR r (mixCols [14, 11, 13, 9] (xorBytes ((shiftRows 3 s).map sboxInv) k))

/-- One block decrypted. -/
def aesDec (key block : List Byte) : List Byte :=
  match (roundKeys key).reverse with
  | k :: r => aesDecR r (xorBytes block k)
  | [] => block

/-! ## Modes -/

/-- A big-endian number. -/
def beNat (l : List Byte) : Nat := leNat l.reverse

/-- The `n` big-endian bytes of a number. -/
def beBytes (v n : Nat) : List Byte := (toBytes v n).reverse

/-- The counter block `k` blocks after `b`, its last `w` bytes counting (R513). -/
def counterAdd (b : List Byte) (w k : Nat) : List Byte :=
  b.take (16 - w) ++ beBytes (beNat (b.drop (16 - w)) + k) w

/-- CTR over pieces of up to 16 bytes, from block `k`. -/
def ctrMode (key b : List Byte) (w : Nat) : Nat → List (List Byte) → List Byte
  | _, [] => []
  | k, x :: r => xorBytes x (aesEnc key (counterAdd b w k)) ++ ctrMode key b w (k + 1) r

/-- CBC encryption from a chaining value. -/
def cbcEnc (key : List Byte) : List Byte → List (List Byte) → List Byte
  | _, [] => []
  | c, x :: r => let y := aesEnc key (xorBytes x c); y ++ cbcEnc key y r

/-- CBC decryption from a chaining value. -/
def cbcDec (key : List Byte) : List Byte → List (List Byte) → List Byte
  | _, [] => []
  | c, x :: r => xorBytes (aesDec key x) c ++ cbcDec key x r

/-- CFB-128, encrypting or decrypting, from a chaining value. -/
def cfbMode (key : List Byte) (dec : Bool) : List Byte → List (List Byte) → List Byte
  | _, [] => []
  | c, x :: r => let y := xorBytes x (aesEnc key c); y ++ cfbMode key dec (if dec then x else y) r

/-- OFB from the last keystream block. -/
def ofbMode (key : List Byte) : List Byte → List (List Byte) → List Byte
  | _, [] => []
  | c, x :: r => let k := aesEnc key c; xorBytes x k ++ ofbMode key k r

/-- Doubling in the CMAC field. -/
def cmacDouble (l : List Byte) : List Byte :=
  let v := beNat l
  let d := beBytes (2 * v) 16
  if 2 ^ 127 ≤ v then xorBytes d (List.replicate 15 0 ++ [0x87]) else d

/-- The CBC-MAC of whole blocks. -/
def cbcMac (key : List Byte) (c : List Byte) (l : List (List Byte)) : List Byte :=
  l.foldl (fun c x => aesEnc key (xorBytes x c)) c

/-- The 16-byte CMAC (NIST SP 800-38B). -/
def cmac (key msg : List Byte) : List Byte :=
  let k1 := cmacDouble (aesEnc key zeroBlock)
  let bs := chunks 16 (msg.length / 16 + 1) msg
  let last := bs.getLastD []
  let last := if last.length = 16 then xorBytes last k1
    else xorBytes (last ++ [0x80] ++ List.replicate (15 - last.length) 0) (cmacDouble k1)
  aesEnc key (xorBytes (cbcMac key zeroBlock bs.dropLast) last)

/-- Zero bytes up to a whole block. -/
def pad16 (l : List Byte) : List Byte := l ++ List.replicate ((16 - l.length % 16) % 16) 0

/-- The formatted associated data of CCM (NIST SP 800-38C). -/
def ccmAad (aad : List Byte) : List Byte :=
  let n := aad.length
  if n = 0 then []
  else pad16 ((if n < 0xFF00 then beBytes n 2 else [0xFF, 0xFE] ++ beBytes n 4) ++ aad)

/-- Counter block 0 of CCM. -/
def ccmCtr (nonce : List Byte) : List Byte :=
  BitVec.ofNat 8 (14 - nonce.length) :: nonce ++ List.replicate (15 - nonce.length) 0

/-- The tag of CCM over associated data and plaintext. -/
def ccmTag (key nonce aad pt : List Byte) (tagLen : Nat) : List Byte :=
  let q := 15 - nonce.length
  let flags := BitVec.ofNat 8 ((if aad.isEmpty then 0 else 64) + 8 * ((tagLen - 2) / 2) + (q - 1))
  let b := (flags :: nonce ++ beBytes pt.length q) ++ ccmAad aad ++ pad16 pt
  let t := cbcMac key zeroBlock (chunks 16 (b.length / 16 + 1) b)
  (xorBytes t (aesEnc key (ccmCtr nonce))).take tagLen

/-- The counter part of CCM: plaintext to ciphertext and back. -/
def ccmCrypt (key nonce data : List Byte) : List Byte :=
  ctrMode key (ccmCtr nonce) (15 - nonce.length) 1 (chunks 16 (data.length / 16 + 1) data)

/-- One step of the unwrap of RFC 3394: `t` is the step number. -/
def unwrapStep (kek : List Byte) (n t : Nat) (a : List Byte) (r : List (List Byte)) : List Byte × List (List Byte) :=
  let i := (t - 1) % n
  let x := aesDec kek (xorBytes a (beBytes t 8) ++ r.getD i [])
  (x.take 8, listSet r i (x.drop 8))

/-- The steps of the unwrap, downward from `t`. -/
def unwrapLoop (kek : List Byte) (n : Nat) : Nat → List Byte → List (List Byte) → List Byte × List (List Byte)
  | 0, a, r => (a, r)
  | t + 1, a, r => let (a, r) := unwrapStep kek n (t + 1) a r; unwrapLoop kek n t a r

/-- The key a wrapped key holds, `none` where its integrity check fails (RFC 3394). -/
def keyUnwrap (kek w : List Byte) : Option (List Byte) :=
  let r := chunks 8 (w.length / 8) w
  let n := r.length - 1
  let (a, r) := unwrapLoop kek n (6 * n) (r.headD []) r.tail
  if a = List.replicate 8 0xA6 then some r.flatten else none

/-- The steps of the wrap, upward to `6n`. -/
def wrapLoop (kek : List Byte) (n : Nat) : Nat → Nat → List Byte → List (List Byte) → List Byte × List (List Byte)
  | 0, _, a, r => (a, r)
  | k + 1, t, a, r =>
    let i := (t - 1) % n
    let x := aesEnc kek (a ++ r.getD i [])
    wrapLoop kek n k (t + 1) (xorBytes (x.take 8) (beBytes t 8)) (listSet r i (x.drop 8))

/-- A key wrapped under the key-encryption key (RFC 3394). -/
def keyWrap (kek key : List Byte) : List Byte :=
  let r := chunks 8 (key.length / 8) key
  let n := r.length
  let (a, r) := wrapLoop kek n (6 * n) 1 (List.replicate 8 0xA6) r
  a ++ r.flatten

end Sys2Proof.Machine
end

