-- ==== Sys2Proof/WellFormed.lean ====
section
/-! DEFINITION. Which operands a command may carry: for an instruction, the operands for which its encoding names an
instruction at all (the others are illegal operations, R98); for the other commands, data of the length they need. -/

namespace Sys2Proof

/-- An even register number. -/
def Reg.even (r : Reg) : Bool := decide (r.val % 2 = 0)

/-- Three distinct registers (R128). -/
def distinct3 (a b c : Reg) : Bool := decide (a ≠ b ∧ a ≠ c ∧ b ≠ c)

/-- Whether a command's operands are ones the spec admits. -/
def Instr.wf : Instr → Bool
  | .ldpair _ t _ _ _ => t.even
  | .stpair _ t _ _ _ => t.even
  | .cas _ d _ _ _ => d.even
  | .pka _ d s1 s2 len => d.even && s1.even && s2.even && decide (len ≠ 0)
  | .pks _ d s1 s2 len => d.even && s1.even && s2.even && decide (len ≠ 0)
  | .movl _ d s1 s2 _ _ => distinct3 d s1 s2
  | .cmpl _ d s1 s2 _ _ => distinct3 d s1 s2
  | .trnl _ d s1 s2 _ _ => distinct3 d s1 s2
  | .cksm _ d s1 s2 p _ => distinct3 d s1 s2 && decide (p = 0)
  | .mtb _ _ s1 => s1.even
  | .mfb _ d _ => d.even
  | .cwb _ d s1 _ => decide (d ≠ s1)
  | .cinv _ d s1 _ => decide (d ≠ s1)
  | .clock _ d s1 _ _ => decide (d ≠ s1)
  | .cunlock _ d s1 _ _ => decide (d ≠ s1)
  | .wrinvf _ _ data => decide (data.length = 256)
  | .wrinvp _ _ off data => decide (0 < data.length ∧ off.toNat + data.length ≤ 256 ∧ data.length < 256)
  | .wbk _ _ data _ => decide (data.length = 256)
  | .snoopResponse _ _ _ data => decide (data.length = 256 ∨ data.length = 0)
  | .memoryReadData _ _ data _ _ => (match data with | some l => decide (l.length = 256) | none => true)
  | _ => true

end Sys2Proof
end

