-- ==== Sys2Proof/Machine/Encode.lean ====
section
/-! DEFINITION. The instruction words of the logical processors' instructions (R81 to R86, R97 to R134, R171, R250).
IWORD of an exception reports them (R96). -/

namespace Sys2Proof.Machine

/-- The register form (R82). -/
def encR (major : Nat) (d s1 s2 : Reg) (func : Nat) : BitVec 32 :=
  BitVec.ofNat 32 (major * 2 ^ 26 + d.val * 2 ^ 21 + s1.val * 2 ^ 16 + s2.val * 2 ^ 11 + func)

/-- The immediate form (R82). -/
def encI (major : Nat) (d s1 : Reg) (imm : Nat) : BitVec 32 :=
  BitVec.ofNat 32 (major * 2 ^ 26 + d.val * 2 ^ 21 + s1.val * 2 ^ 16 + imm)

/-- The short or the long immediate form (R84). -/
def encImm (major : Nat) (d s1 : Reg) : Imm → List (BitVec 32)
  | .short v => [encI major d s1 v.toNat]
  | .long v => [encI (major + 0x20) d s1 0, v]

/-- The short or the long memory form (R82, R84). -/
def encM (major : Nat) (t base : Reg) (bank : BankNo) : Disp → List (BitVec 32)
  | .short v => [encI major t base (bank.val * 2 ^ 12 + v.toNat)]
  | .long v => [encI (major + 0x20) t base (bank.val * 2 ^ 12), v]

/-- The branch form (R82). -/
def encB (major : Nat) (r : Reg) (off : BitVec 21) : BitVec 32 :=
  BitVec.ofNat 32 (major * 2 ^ 26 + r.val * 2 ^ 21 + off.toNat)

/-- The atomics (R111). -/
def encA (op : Nat) (d s1 : Reg) (bank : BankNo) (dbl : Bool) : BitVec 32 :=
  BitVec.ofNat 32 (0x04 * 2 ^ 26 + d.val * 2 ^ 21 + s1.val * 2 ^ 16 + bank.val * 2 ^ 11 + (if dbl then 3 else 2) * 2 ^ 4 + op)

/-- The system group: registers, field N and function (R133). -/
def encS (func : Nat) (d s1 : Reg) (n : Nat) : BitVec 32 :=
  BitVec.ofNat 32 (0x06 * 2 ^ 26 + d.val * 2 ^ 21 + s1.val * 2 ^ 16 + n * 2 ^ 6 + func)

/-- A flag bit as a number. -/
def bn (b : Bool) : Nat := if b then 1 else 0

/-- The words of a logical processor's instruction; none for the other commands. -/
def encode : Instr → List (BitVec 32)
  | .add _ d s1 s2 => [encR 0 d s1 s2 0x000]
  | .sub _ d s1 s2 => [encR 0 d s1 s2 0x001]
  | .and _ d s1 s2 => [encR 0 d s1 s2 0x002]
  | .or _ d s1 s2 => [encR 0 d s1 s2 0x003]
  | .xor _ d s1 s2 => [encR 0 d s1 s2 0x004]
  | .andn _ d s1 s2 => [encR 0 d s1 s2 0x005]
  | .sll _ d s1 s2 => [encR 0 d s1 s2 0x006]
  | .srl _ d s1 s2 => [encR 0 d s1 s2 0x007]
  | .sra _ d s1 s2 => [encR 0 d s1 s2 0x008]
  | .ror _ d s1 s2 => [encR 0 d s1 s2 0x009]
  | .cmpeq _ d s1 s2 => [encR 0 d s1 s2 0x00A]
  | .cmplt _ d s1 s2 => [encR 0 d s1 s2 0x00B]
  | .cmpltu _ d s1 s2 => [encR 0 d s1 s2 0x00C]
  | .sextb _ d s1 => [encR 0 d s1 0 0x00D]
  | .sexth _ d s1 => [encR 0 d s1 0 0x00E]
  | .sextw _ d s1 => [encR 0 d s1 0 0x00F]
  | .clz _ d s1 => [encR 0 d s1 0 0x010]
  | .popc _ d s1 => [encR 0 d s1 0 0x011]
  | .min _ d s1 s2 => [encR 0 d s1 s2 0x012]
  | .max _ d s1 s2 => [encR 0 d s1 s2 0x013]
  | .minu _ d s1 s2 => [encR 0 d s1 s2 0x014]
  | .maxu _ d s1 s2 => [encR 0 d s1 s2 0x015]
  | .mul _ d s1 s2 => [encR 1 d s1 s2 0]
  | .mulh _ d s1 s2 => [encR 1 d s1 s2 1]
  | .mulhu _ d s1 s2 => [encR 1 d s1 s2 2]
  | .div _ d s1 s2 => [encR 1 d s1 s2 4]
  | .divu _ d s1 s2 => [encR 1 d s1 s2 5]
  | .rem _ d s1 s2 => [encR 1 d s1 s2 6]
  | .remu _ d s1 s2 => [encR 1 d s1 s2 7]
  | .addi _ d s1 imm => encImm 0x08 d s1 imm
  | .andi _ d s1 imm => encImm 0x09 d s1 imm
  | .ori _ d s1 imm => encImm 0x0A d s1 imm
  | .xori _ d s1 imm => encImm 0x0B d s1 imm
  | .ldi _ d imm => encImm 0x0C d 0 imm
  | .shi _ d s1 kind amount => [encI 0x0D d s1 (kind.toNat * 2 ^ 6 + amount.toNat)]
  | .callm _ t mask => [encI 0x0E 0 t mask.toNat]
  | .retm _ mask => [encI 0x0F 0 0 mask.toNat]
  | .br _ off => [encB 0x20 0 off]
  | .bz _ r off => [encB 0x21 r off]
  | .bnz _ r off => [encB 0x22 r off]
  | .bltz _ r off => [encB 0x23 r off]
  | .bgez _ r off => [encB 0x24 r off]
  | .bal _ r off => [encB 0x25 r off]
  | .jmp _ r => [encB 0x26 r 0]
  | .dbnz _ r off => [encB 0x27 r off]
  | .ldb _ t b k d => encM 0x10 t b k d
  | .ldh _ t b k d => encM 0x11 t b k d
  | .ldw _ t b k d => encM 0x12 t b k d
  | .ldd _ t b k d => encM 0x13 t b k d
  | .stb _ t b k d => encM 0x14 t b k d
  | .sth _ t b k d => encM 0x15 t b k d
  | .stw _ t b k d => encM 0x16 t b k d
  | .std _ t b k d => encM 0x17 t b k d
  | .ldfs _ t b k d => encM 0x18 t b k d
  | .ldf _ t b k d => encM 0x19 t b k d
  | .stfs _ t b k d => encM 0x1A t b k d
  | .stf _ t b k d => encM 0x1B t b k d
  | .ldpair _ t b k d => encM 0x1C t b k d
  | .stpair _ t b k d => encM 0x1D t b k d
  | .lrsv _ d s1 k z => [encA 0 d s1 k z]
  | .stcond _ d s1 k z => [encA 1 d s1 k z]
  | .swap _ d s1 k z => [encA 2 d s1 k z]
  | .aadd _ d s1 k z => [encA 3 d s1 k z]
  | .aand _ d s1 k z => [encA 4 d s1 k z]
  | .aor _ d s1 k z => [encA 5 d s1 k z]
  | .axor _ d s1 k z => [encA 6 d s1 k z]
  | .cas _ d s1 k z => [encA 7 d s1 k z]
  | .fadd _ d s1 s2 p => [encR 2 d s1 s2 (0x00 * 2 + bn p)]
  | .fsub _ d s1 s2 p => [encR 2 d s1 s2 (0x01 * 2 + bn p)]
  | .fmul _ d s1 s2 p => [encR 2 d s1 s2 (0x02 * 2 + bn p)]
  | .fdiv _ d s1 s2 p => [encR 2 d s1 s2 (0x03 * 2 + bn p)]
  | .fsqrt _ d s1 p => [encR 2 d s1 0 (0x04 * 2 + bn p)]
  | .fma _ d s1 s2 p => [encR 2 d s1 s2 (0x05 * 2 + bn p)]
  | .fms _ d s1 s2 p => [encR 2 d s1 s2 (0x06 * 2 + bn p)]
  | .fnma _ d s1 s2 p => [encR 2 d s1 s2 (0x07 * 2 + bn p)]
  | .fmin _ d s1 s2 p => [encR 2 d s1 s2 (0x08 * 2 + bn p)]
  | .fmax _ d s1 s2 p => [encR 2 d s1 s2 (0x09 * 2 + bn p)]
  | .fneg _ d s1 p => [encR 2 d s1 0 (0x0A * 2 + bn p)]
  | .fabs _ d s1 p => [encR 2 d s1 0 (0x0B * 2 + bn p)]
  | .fcmpeq _ d s1 s2 p => [encR 3 d s1 s2 (0x00 * 2 + bn p)]
  | .fcmplt _ d s1 s2 p => [encR 3 d s1 s2 (0x01 * 2 + bn p)]
  | .fcmple _ d s1 s2 p => [encR 3 d s1 s2 (0x02 * 2 + bn p)]
  | .fclass _ d s1 p => [encR 3 d s1 0 (0x03 * 2 + bn p)]
  | .fcvtf _ d s1 p => [encR 3 d s1 0 (0x04 * 2 + bn p)]
  | .fcvti _ d s1 p => [encR 3 d s1 0 (0x05 * 2 + bn p)]
  | .fcvtiu _ d s1 p => [encR 3 d s1 0 (0x06 * 2 + bn p)]
  | .icvtf _ d s1 p => [encR 3 d s1 0 (0x07 * 2 + bn p)]
  | .iucvtf _ d s1 p => [encR 3 d s1 0 (0x08 * 2 + bn p)]
  | .movgf _ d s1 => [encR 3 d s1 0 (0x09 * 2)]
  | .movfg _ d s1 => [encR 3 d s1 0 (0x0A * 2)]
  | .pka _ d s1 s2 len => [encR 5 d s1 s2 (len.toNat * 8 + 0)]
  | .pks _ d s1 s2 len => [encR 5 d s1 s2 (len.toNat * 8 + 1)]
  | .movl _ d s1 s2 p q => [encR 5 d s1 s2 (p.val * 2 ^ 7 + q.val * 2 ^ 3 + 2)]
  | .cmpl _ d s1 s2 p q => [encR 5 d s1 s2 (p.val * 2 ^ 7 + q.val * 2 ^ 3 + 3)]
  | .trnl _ d s1 s2 p q => [encR 5 d s1 s2 (p.val * 2 ^ 7 + q.val * 2 ^ 3 + 4)]
  | .cksm _ d s1 s2 p q => [encR 5 d s1 s2 (p.val * 2 ^ 7 + q.val * 2 ^ 3 + 5)]
  | .mtc _ c s1 => [encS 0x00 0 s1 c.toNat]
  | .mfc _ d c => [encS 0x01 d 0 c.toNat]
  | .mtb _ b s1 => [encS 0x02 0 s1 b.val]
  | .mfb _ d b => [encS 0x03 d 0 b.val]
  | .rfl _ => [encS 0x04 0 0 0]
  | .lvc _ target service => [BitVec.ofNat 32 (0x07 * 2 ^ 26 + target.toNat * 2 ^ 21 + service.toNat * 2 ^ 5)]
  | .fence _ => [encS 0x05 0 0 0]
  | .dsync _ => [encS 0x06 0 0 0]
  | .iosync _ => [encS 0x07 0 0 0]
  | .spill _ n => [encS 0x08 0 0 n.val]
  | .fill _ s1 n => [encS 0x09 0 s1 n.val]
  | .rdslip _ d n r => [encS 0x0A d 0 (n.val + r.val * 2 ^ 3)]
  | .ttbind _ d s1 s2 => [encS 0x0B d s1 (s2.val * 2 ^ 5)]
  | .ttwait _ => [encS 0x0C 0 0 0]
  | .ttyield _ => [encS 0x0D 0 0 0]
  | .signal _ d s1 => [encS 0x0E d s1 0]
  | .timer _ s1 => [encS 0x0F 0 s1 0]
  | .cwb _ d s1 b => [encS 0x10 d s1 b.val]
  | .cinv _ d s1 b => [encS 0x11 d s1 b.val]
  | .clock _ d s1 b x => [encS 0x12 d s1 (b.val + bn x * 2 ^ 4)]
  | .cunlock _ d s1 b x => [encS 0x13 d s1 (b.val + bn x * 2 ^ 4)]
  | .ctouch _ d b x => [encS 0x14 d 0 (b.val + bn x * 2 ^ 4)]
  | .czero _ d b => [encS 0x15 d 0 b.val]
  | .customInstruction _ word _ => [BitVec.ofNat 32 (0x3E * 2 ^ 26 + word.toNat)]
  | .forerunnerInstruction _ word _ => [word]
  | _ => []

/-- IWORD of an instruction: its words, the first in bits 31:0 (R96). -/
def iwordOf (i : Instr) : Word :=
  match encode i with
  | [] => 0
  | [w] => BitVec.ofNat 64 w.toNat
  | w :: w2 :: _ => BitVec.ofNat 64 (w.toNat + w2.toNat * 2 ^ 32)

/-! ## Decoding -/

/-- Bits `hi`:`lo` of an instruction word. -/
def iwBits (w : BitVec 32) (hi lo : Nat) : Nat := (w.toNat >>> lo) % 2 ^ (hi + 1 - lo)

/-- The register at bit `lo` of an instruction word. -/
def regAt (w : BitVec 32) (lo : Nat) : Reg := Fin.ofNat 32 (w.toNat >>> lo)

/-- The bank at bit `lo` of an instruction word. -/
def bankAt (w : BitVec 32) (lo : Nat) : BankNo := Fin.ofNat 16 (w.toNat >>> lo)

/-- A bit of an instruction word. -/
def bitAt (w : BitVec 32) (lo : Nat) : Bool := w.toNat.testBit lo

/-- Integer operations by function (R99). -/
def candAlu (lp : LpId) (w : BitVec 32) : Option Instr :=
  let d := regAt w 21
  let s1 := regAt w 16
  let s2 := regAt w 11
  match iwBits w 10 0 with
  | 0x00 => some (.add lp d s1 s2)
  | 0x01 => some (.sub lp d s1 s2)
  | 0x02 => some (.and lp d s1 s2)
  | 0x03 => some (.or lp d s1 s2)
  | 0x04 => some (.xor lp d s1 s2)
  | 0x05 => some (.andn lp d s1 s2)
  | 0x06 => some (.sll lp d s1 s2)
  | 0x07 => some (.srl lp d s1 s2)
  | 0x08 => some (.sra lp d s1 s2)
  | 0x09 => some (.ror lp d s1 s2)
  | 0x0A => some (.cmpeq lp d s1 s2)
  | 0x0B => some (.cmplt lp d s1 s2)
  | 0x0C => some (.cmpltu lp d s1 s2)
  | 0x0D => some (.sextb lp d s1)
  | 0x0E => some (.sexth lp d s1)
  | 0x0F => some (.sextw lp d s1)
  | 0x10 => some (.clz lp d s1)
  | 0x11 => some (.popc lp d s1)
  | 0x12 => some (.min lp d s1 s2)
  | 0x13 => some (.max lp d s1 s2)
  | 0x14 => some (.minu lp d s1 s2)
  | 0x15 => some (.maxu lp d s1 s2)
  | _ => none

/-- Multiplier and divider (R103). -/
def candMul (lp : LpId) (w : BitVec 32) : Option Instr :=
  let d := regAt w 21
  let s1 := regAt w 16
  let s2 := regAt w 11
  match iwBits w 10 0 with
  | 0 => some (.mul lp d s1 s2)
  | 1 => some (.mulh lp d s1 s2)
  | 2 => some (.mulhu lp d s1 s2)
  | 4 => some (.div lp d s1 s2)
  | 5 => some (.divu lp d s1 s2)
  | 6 => some (.rem lp d s1 s2)
  | 7 => some (.remu lp d s1 s2)
  | _ => none

/-- Floating arithmetic (R115). -/
def candF (lp : LpId) (w : BitVec 32) : Option Instr :=
  let d := regAt w 21
  let s1 := regAt w 16
  let s2 := regAt w 11
  let p := bitAt w 0
  match iwBits w 10 1 with
  | 0 => some (.fadd lp d s1 s2 p)
  | 1 => some (.fsub lp d s1 s2 p)
  | 2 => some (.fmul lp d s1 s2 p)
  | 3 => some (.fdiv lp d s1 s2 p)
  | 4 => some (.fsqrt lp d s1 p)
  | 5 => some (.fma lp d s1 s2 p)
  | 6 => some (.fms lp d s1 s2 p)
  | 7 => some (.fnma lp d s1 s2 p)
  | 8 => some (.fmin lp d s1 s2 p)
  | 9 => some (.fmax lp d s1 s2 p)
  | 10 => some (.fneg lp d s1 p)
  | 11 => some (.fabs lp d s1 p)
  | _ => none

/-- Floating compares, conversions and moves (R116). -/
def candFc (lp : LpId) (w : BitVec 32) : Option Instr :=
  let d := regAt w 21
  let s1 := regAt w 16
  let s2 := regAt w 11
  let p := bitAt w 0
  match iwBits w 10 1 with
  | 0 => some (.fcmpeq lp d s1 s2 p)
  | 1 => some (.fcmplt lp d s1 s2 p)
  | 2 => some (.fcmple lp d s1 s2 p)
  | 3 => some (.fclass lp d s1 p)
  | 4 => some (.fcvtf lp d s1 p)
  | 5 => some (.fcvti lp d s1 p)
  | 6 => some (.fcvtiu lp d s1 p)
  | 7 => some (.icvtf lp d s1 p)
  | 8 => some (.iucvtf lp d s1 p)
  | 9 => some (.movgf lp d s1)
  | 10 => some (.movfg lp d s1)
  | _ => none

/-- Atomics and reservations (R111). -/
def candAtomic (lp : LpId) (w : BitVec 32) : Option Instr :=
  let d := regAt w 21
  let s1 := regAt w 16
  let k := bankAt w 11
  let z := bitAt w 4
  match iwBits w 3 0 with
  | 0 => some (.lrsv lp d s1 k z)
  | 1 => some (.stcond lp d s1 k z)
  | 2 => some (.swap lp d s1 k z)
  | 3 => some (.aadd lp d s1 k z)
  | 4 => some (.aand lp d s1 k z)
  | 5 => some (.aor lp d s1 k z)
  | 6 => some (.axor lp d s1 k z)
  | 7 => some (.cas lp d s1 k z)
  | _ => none

/-- Packed decimal and resumable long instructions (R125, R128). -/
def candLong (lp : LpId) (w : BitVec 32) : Option Instr :=
  let d := regAt w 21
  let s1 := regAt w 16
  let s2 := regAt w 11
  let p := bankAt w 7
  let q := bankAt w 3
  match iwBits w 2 0 with
  | 0 => some (.pka lp d s1 s2 (BitVec.ofNat 5 (iwBits w 7 3)))
  | 1 => some (.pks lp d s1 s2 (BitVec.ofNat 5 (iwBits w 7 3)))
  | 2 => some (.movl lp d s1 s2 p q)
  | 3 => some (.cmpl lp d s1 s2 p q)
  | 4 => some (.trnl lp d s1 s2 p q)
  | 5 => some (.cksm lp d s1 s2 p q)
  | _ => none

/-- The system group (R133, R171, R250). -/
def candSystem (lp : LpId) (w : BitVec 32) : Option Instr :=
  let d := regAt w 21
  let s1 := regAt w 16
  let b := bankAt w 6
  let x := bitAt w 10
  match iwBits w 5 0 with
  | 0x00 => some (.mtc lp (BitVec.ofNat 6 (iwBits w 11 6)) s1)
  | 0x01 => some (.mfc lp d (BitVec.ofNat 6 (iwBits w 11 6)))
  | 0x02 => some (.mtb lp b s1)
  | 0x03 => some (.mfb lp d b)
  | 0x04 => some (.rfl lp)
  | 0x05 => some (.fence lp)
  | 0x06 => some (.dsync lp)
  | 0x07 => some (.iosync lp)
  | 0x08 => some (.spill lp (Fin.ofNat 8 (iwBits w 8 6)))
  | 0x09 => some (.fill lp s1 (Fin.ofNat 8 (iwBits w 8 6)))
  | 0x0A => some (.rdslip lp d (Fin.ofNat 8 (iwBits w 8 6)) (Fin.ofNat 64 (iwBits w 14 9)))
  | 0x0B => some (.ttbind lp d s1 (regAt w 11))
  | 0x0C => some (.ttwait lp)
  | 0x0D => some (.ttyield lp)
  | 0x0E => some (.signal lp d s1)
  | 0x0F => some (.timer lp s1)
  | 0x10 => some (.cwb lp d s1 b)
  | 0x11 => some (.cinv lp d s1 b)
  | 0x12 => some (.clock lp d s1 b x)
  | 0x13 => some (.cunlock lp d s1 b x)
  | 0x14 => some (.ctouch lp d b x)
  | 0x15 => some (.czero lp d b)
  | _ => none

/-- An immediate of either form (R84). -/
def immAt (long : Bool) (w0 w1 : BitVec 32) : Imm := if long then .long w1 else .short (BitVec.ofNat 16 w0.toNat)

/-- A displacement of either form (R83, R84). -/
def dispAt (long : Bool) (w0 w1 : BitVec 32) : Disp := if long then .long w1 else .short (BitVec.ofNat 12 w0.toNat)

/-- Memory forms by major opcode less 0x10 (R108). -/
def candMem (lp : LpId) (m : Nat) (long : Bool) (w0 w1 : BitVec 32) : Option Instr :=
  let t := regAt w0 21
  let b := regAt w0 16
  let k := bankAt w0 12
  let o := dispAt long w0 w1
  match m with
  | 0 => some (.ldb lp t b k o)
  | 1 => some (.ldh lp t b k o)
  | 2 => some (.ldw lp t b k o)
  | 3 => some (.ldd lp t b k o)
  | 4 => some (.stb lp t b k o)
  | 5 => some (.sth lp t b k o)
  | 6 => some (.stw lp t b k o)
  | 7 => some (.std lp t b k o)
  | 8 => some (.ldfs lp t b k o)
  | 9 => some (.ldf lp t b k o)
  | 10 => some (.stfs lp t b k o)
  | 11 => some (.stf lp t b k o)
  | 12 => some (.ldpair lp t b k o)
  | 13 => some (.stpair lp t b k o)
  | _ => none

/-- Immediate forms by major opcode less 0x08 (R101). -/
def candImm (lp : LpId) (m : Nat) (long : Bool) (w0 w1 : BitVec 32) : Option Instr :=
  let d := regAt w0 21
  let s1 := regAt w0 16
  let v := immAt long w0 w1
  match m with
  | 0 => some (.addi lp d s1 v)
  | 1 => some (.andi lp d s1 v)
  | 2 => some (.ori lp d s1 v)
  | 3 => some (.xori lp d s1 v)
  | 4 => some (.ldi lp d v)
  | 5 => some (.shi lp d s1 (BitVec.ofNat 2 (iwBits w0 7 6)) (BitVec.ofNat 6 (iwBits w0 5 0)))
  | 6 => some (.callm lp s1 (BitVec.ofNat 16 w0.toNat))
  | 7 => some (.retm lp (BitVec.ofNat 16 w0.toNat))
  | _ => none

/-- Branch forms by major opcode less 0x20 (R102). -/
def candBranch (lp : LpId) (m : Nat) (w : BitVec 32) : Option Instr :=
  let r := regAt w 21
  let o := BitVec.ofNat 21 w.toNat
  match m with
  | 0 => some (.br lp o)
  | 1 => some (.bz lp r o)
  | 2 => some (.bnz lp r o)
  | 3 => some (.bltz lp r o)
  | 4 => some (.bgez lp r o)
  | 5 => some (.bal lp r o)
  | 6 => some (.jmp lp r)
  | 7 => some (.dbnz lp r o)
  | _ => none

/-- The instruction whose fields two words hold, if their major opcode and function name one (R97); `w1` is the second word of
a long form. -/
def candidate (lp : LpId) (w0 w1 : BitVec 32) : Option Instr :=
  let m := iwBits w0 31 26
  if m = 0x00 then candAlu lp w0
  else if m = 0x01 then candMul lp w0
  else if m = 0x02 then candF lp w0
  else if m = 0x03 then candFc lp w0
  else if m = 0x04 then candAtomic lp w0
  else if m = 0x05 then candLong lp w0
  else if m = 0x06 then candSystem lp w0
  else if m = 0x07 then some (.lvc lp (BitVec.ofNat 2 (iwBits w0 22 21)) (BitVec.ofNat 16 (iwBits w0 20 5)))
  else if m < 0x10 then candImm lp (m - 0x08) false w0 w1
  else if m < 0x20 then candMem lp (m - 0x10) false w0 w1
  else if m < 0x28 then candBranch lp (m - 0x20) w0
  else if m < 0x30 then candImm lp (m - 0x28) true w0 w1
  else if m < 0x3E then candMem lp (m - 0x30) true w0 w1
  else if m = 0x3E then some (.customInstruction lp (BitVec.ofNat 26 w0.toNat) 0)
  else none

/-- The words an instruction of `n` words takes from two fetched words. -/
def fetchedOf (n : Nat) (w0 w1 : BitVec 32) : List (BitVec 32) := if n = 2 then [w0, w1] else [w0]

/-- Whether a first word has a long form's major opcode (R84, R97). -/
def isLong (w0 : BitVec 32) : Bool := decide (0x28 ≤ iwBits w0 31 26 ∧ iwBits w0 31 26 < 0x3E)

/-- The instruction two fetched words name: every field that must be zero is, and its operands are admitted (R98). -/
def decodeWords (lp : LpId) (w0 w1 : BitVec 32) : Option Instr :=
  match candidate lp w0 w1 with
  | some i => if encode i = fetchedOf (encode i).length w0 w1 ∧ i.wf then some i else none
  | none => none

end Sys2Proof.Machine
end

