-- ==== Sys2Proof/Machine/Flags.lean ====
section
/-! DEFINITION. Floating-point arithmetic and its flags: every operation computes its exact value and rounds it once
(R115 to R123).  A result is the register value and the flags raised, NV, DZ, OF, UF, NX from bit 0 (R58). -/

namespace Sys2Proof.Machine

/-- Invalid operation. -/
def fNV : BitVec 5 := 1
/-- Divide by zero. -/
def fDZ : BitVec 5 := 2
/-- Overflow. -/
def fOF : BitVec 5 := 4
/-- Underflow. -/
def fUF : BitVec 5 := 8
/-- Inexact. -/
def fNX : BitVec 5 := 16

/-- Rounding modes of FPSR.RM (R58). -/
inductive Rm where
  | rne
  | rtz
  | rup
  | rdn
  | rmm
deriving DecidableEq, Repr

/-- The mode with a number (R58). -/
def rmNum (n : Nat) : Rm := if n = 0 then .rne else if n = 1 then .rtz else if n = 2 then .rup else if n = 3 then .rdn else .rmm

/-- A format: exponent and fraction bits. -/
structure Fmt where
  eb : Nat
  mb : Nat
deriving DecidableEq, Repr

/-- The format of precision bit P: binary32 when set (R115). -/
def fmtOf (p : Bool) : Fmt := if p then ⟨8, 23⟩ else ⟨11, 52⟩

/-- The greatest exponent, which is the bias. -/
def Fmt.emax (f : Fmt) : Int := 2 ^ (f.eb - 1) - 1
/-- The exponent of the smallest normal. -/
def Fmt.emin (f : Fmt) : Int := 1 - f.emax
/-- Bits of a format. -/
def Fmt.width (f : Fmt) : Nat := 1 + f.eb + f.mb

/-- A floating value: a NaN, an infinity, or (−1)^neg × m × 2^e. -/
inductive FV where
  | nan (signalling : Bool)
  | inf (neg : Bool)
  | fin (neg : Bool) (m : Nat) (e : Int)
deriving DecidableEq, Repr

/-- The value of a register operand; a binary32 operand is bits 31:0 (R55). -/
def FV.decode (f : Fmt) (w : Word) : FV :=
  let n := w.toNat % 2 ^ f.width
  let neg := n.testBit (f.width - 1)
  let ex := (n >>> f.mb) % 2 ^ f.eb
  let fr := n % 2 ^ f.mb
  if ex = 2 ^ f.eb - 1 then
    if fr = 0 then .inf neg else .nan (!fr.testBit (f.mb - 1))
  else if ex = 0 then .fin neg fr (f.emin - f.mb)
  else .fin neg (fr + 2 ^ f.mb) ((ex : Int) - f.emax - f.mb)

/-- Packs sign, biased exponent and fraction; a binary32 result has bits 63:32 zero (R55). -/
def packF (f : Fmt) (neg : Bool) (ex fr : Nat) : Word :=
  BitVec.ofNat 64 ((if neg then 2 ^ (f.width - 1) else 0) + ex * 2 ^ f.mb + fr)

/-- The canonical NaN (R118). -/
def canonNaN (f : Fmt) : Word := packF f false (2 ^ f.eb - 1) (2 ^ (f.mb - 1))

/-- Infinity. -/
def packInf (f : Fmt) (neg : Bool) : Word := packF f neg (2 ^ f.eb - 1) 0

/-- Zero with a sign. -/
def packZero (f : Fmt) (neg : Bool) : Word := packF f neg 0 0

/-- The greatest finite value. -/
def packMax (f : Fmt) (neg : Bool) : Word := packF f neg (2 ^ f.eb - 2) (2 ^ f.mb - 1)

/-- The number of bits of `m`. -/
def bitLength (m : Nat) : Nat := if m = 0 then 0 else m.log2 + 1

/-- Whether a magnitude with quotient `q`, remainder `r` of `d` rounds up (R58). -/
def roundUp (rm : Rm) (neg : Bool) (q r d : Nat) : Bool :=
  if r = 0 then false
  else match rm with
    | .rne => decide (d < 2 * r ∨ (d = 2 * r ∧ q % 2 = 1))
    | .rtz => false
    | .rup => !neg
    | .rdn => neg
    | .rmm => decide (d ≤ 2 * r)

/-- m × 2^e as a multiple of 2^q, rounded; and whether that is exact. -/
def roundTo (rm : Rm) (neg : Bool) (m : Nat) (e q : Int) : Nat × Bool :=
  if q ≤ e then (m <<< (e - q).toNat, true)
  else
    let d := 2 ^ (q - e).toNat
    let qu := m / d
    let r := m % d
    (if roundUp rm neg qu r d then qu + 1 else qu, decide (r = 0))

/-- Rounds (−1)^neg × m × 2^e, m not 0, to a format (R117): tininess is judged after rounding with unbounded
exponent; underflow needs a tiny and inexact result. -/
def roundF (f : Fmt) (rm : Rm) (neg : Bool) (m : Nat) (e : Int) : Word × BitVec 5 :=
  let p : Int := f.mb + 1
  let ex : Int := (bitLength m : Int) - 1 + e
  let q0 := ex - (p - 1)
  let qmin := f.emin - (p - 1)
  let q := if qmin ≤ q0 then q0 else qmin
  let (n, exact) := roundTo rm neg m e q
  let (n, q) := if n = 2 ^ (f.mb + 1) then (2 ^ f.mb, q + 1) else (n, q)
  let (n0, _) := roundTo rm neg m e q0
  let tiny := decide (ex < f.emin) && !(decide (ex + 1 = f.emin) && decide (n0 = 2 ^ (f.mb + 1)))
  let nx : BitVec 5 := if exact then 0 else fNX
  if f.emax < q + (p - 1) ∧ 2 ^ f.mb ≤ n then
    let toInf := match rm with
      | .rne => true
      | .rmm => true
      | .rtz => false
      | .rup => !neg
      | .rdn => neg
    (if toInf then packInf f neg else packMax f neg, fOF ||| fNX)
  else
    let w := if n < 2 ^ f.mb then packF f neg 0 n
      else packF f neg (q + (p - 1) + f.emax).toNat (n - 2 ^ f.mb)
    (w, nx ||| (if tiny ∧ ¬ exact then fUF else 0))

/-- The exact sum of two finite values, as a signed integer times 2^e. -/
def sumInt (n1 : Bool) (m1 : Nat) (e1 : Int) (n2 : Bool) (m2 : Nat) (e2 : Int) : Int × Int :=
  let e := if e1 ≤ e2 then e1 else e2
  let a : Int := (m1 <<< (e1 - e).toNat : Nat)
  let b : Int := (m2 <<< (e2 - e).toNat : Nat)
  ((if n1 then -a else a) + (if n2 then -b else b), e)

/-- Rounds an exact signed integer times 2^e; `zneg` is the sign of an exact zero. -/
def roundInt (f : Fmt) (rm : Rm) (v e : Int) (zneg : Bool) : Word × BitVec 5 :=
  if v = 0 then (packZero f zneg, 0) else roundF f rm (decide (v < 0)) v.natAbs e

/-- The NaN result: canonical, invalid when an operand signals (R118). -/
def nanResult (f : Fmt) (l : List FV) : Word × BitVec 5 :=
  (canonNaN f, if l.any (fun x => match x with | .nan s => s | _ => false) then fNV else 0)

/-- Whether a value is a NaN. -/
def FV.isNaN : FV → Bool
  | .nan _ => true
  | _ => false

/-- Whether a value is a signalling NaN. -/
def FV.isSig : FV → Bool
  | .nan s => s
  | _ => false

/-- A value with its sign inverted. -/
def FV.negate : FV → FV
  | .nan s => .nan s
  | .inf n => .inf (!n)
  | .fin n m e => .fin (!n) m e

/-- The sign of an exact zero sum (R117). -/
def zeroSign (rm : Rm) (n1 n2 : Bool) : Bool := if n1 = n2 then n1 else decide (rm = .rdn)

/-- Addition of two values (FADD, FSUB). -/
def addFV (f : Fmt) (rm : Rm) : FV → FV → Word × BitVec 5
  | .inf a, .inf b => if a = b then (packInf f a, 0) else (canonNaN f, fNV)
  | .inf a, .fin _ _ _ => (packInf f a, 0)
  | .fin _ _ _, .inf b => (packInf f b, 0)
  | .fin n1 m1 e1, .fin n2 m2 e2 =>
    let (v, e) := sumInt n1 m1 e1 n2 m2 e2
    roundInt f rm v e (zeroSign rm n1 n2)
  | x, y => nanResult f [x, y]

/-- Multiplication (FMUL). -/
def mulFV (f : Fmt) (rm : Rm) : FV → FV → Word × BitVec 5
  | .inf a, .inf b => (packInf f (a != b), 0)
  | .inf a, .fin n m _ => if m = 0 then (canonNaN f, fNV) else (packInf f (a != n), 0)
  | .fin n m _, .inf b => if m = 0 then (canonNaN f, fNV) else (packInf f (n != b), 0)
  | .fin n1 m1 e1, .fin n2 m2 e2 =>
    if m1 * m2 = 0 then (packZero f (n1 != n2), 0) else roundF f rm (n1 != n2) (m1 * m2) (e1 + e2)
  | x, y => nanResult f [x, y]

/-- Division (FDIV): 128 further quotient bits, the last of them sticky. -/
def divFV (f : Fmt) (rm : Rm) : FV → FV → Word × BitVec 5
  | .inf _, .inf _ => (canonNaN f, fNV)
  | .inf a, .fin n _ _ => (packInf f (a != n), 0)
  | .fin n _ _, .inf b => (packZero f (n != b), 0)
  | .fin n1 m1 e1, .fin n2 m2 e2 =>
    if m2 = 0 then (if m1 = 0 then (canonNaN f, fNV) else (packInf f (n1 != n2), fDZ))
    else if m1 = 0 then (packZero f (n1 != n2), 0)
    else
      let a := m1 <<< 128
      roundF f rm (n1 != n2) (a / m2 * 2 + (if a % m2 = 0 then 0 else 1)) (e1 - e2 - 129)
  | x, y => nanResult f [x, y]

/-- The integer square root by bits, from bit `k − 1` down. -/
def isqrtAux (n : Nat) : Nat → Nat → Nat
  | 0, r => r
  | k + 1, r => let c := r + 2 ^ k; isqrtAux n k (if c * c ≤ n then c else r)

/-- The integer square root of a number below 2^256. -/
def isqrt (n : Nat) : Nat := isqrtAux n 128 0

/-- Square root (FSQRT). -/
def sqrtFV (f : Fmt) (rm : Rm) : FV → Word × BitVec 5
  | .inf a => if a then (canonNaN f, fNV) else (packInf f false, 0)
  | .fin n m e =>
    if m = 0 then (packZero f n, 0)
    else if n then (canonNaN f, fNV)
    else
      let (m, e) := if e % 2 = 0 then (m, e) else (m * 2, e - 1)
      let a := m <<< 160
      let r := isqrt a
      roundF f rm false (r * 2 + (if r * r = a then 0 else 1)) (e / 2 - 81)
  | x => nanResult f [x]

/-- x × y + z with one rounding (FMA, FMS, FNMA); zero times infinity is invalid even with a quiet NaN addend
(R117). -/
def fmaFV (f : Fmt) (rm : Rm) (x y z : FV) : Word × BitVec 5 :=
  let zeroInf := match x, y with
    | .inf _, .fin _ m _ => decide (m = 0)
    | .fin _ m _, .inf _ => decide (m = 0)
    | _, _ => false
  if zeroInf then (canonNaN f, fNV)
  else match x, y, z with
    | .fin n1 m1 e1, .fin n2 m2 e2, .fin n3 m3 e3 =>
      let (v, e) := sumInt (n1 != n2) (m1 * m2) (e1 + e2) n3 m3 e3
      roundInt f rm v e (zeroSign rm (n1 != n2) n3)
    | .fin _ _ _, .fin _ _ _, .inf c => (packInf f c, 0)
    | .nan _, _, _ => nanResult f [x, y, z]
    | _, .nan _, _ => nanResult f [x, y, z]
    | _, _, .nan _ => nanResult f [x, y, z]
    | _, _, .inf c =>
      let pn := (match x with | .inf a => a | .fin n _ _ => n | _ => false) !=
        (match y with | .inf a => a | .fin n _ _ => n | _ => false)
      if pn = c then (packInf f c, 0) else (canonNaN f, fNV)
    | _, _, .fin _ _ _ =>
      let pn := (match x with | .inf a => a | .fin n _ _ => n | _ => false) !=
        (match y with | .inf a => a | .fin n _ _ => n | _ => false)
      (packInf f pn, 0)

/-- x < y of two values that are no NaN; zeros are equal. -/
def ltFV : FV → FV → Bool
  | .inf a, .inf b => a && !b
  | .inf a, .fin _ _ _ => a
  | .fin _ _ _, .inf b => !b
  | .fin n1 m1 e1, .fin n2 m2 e2 => decide ((sumInt n1 m1 e1 (!n2) m2 e2).1 < 0)
  | _, _ => false

/-- x = y of two values that are no NaN; zeros are equal. -/
def eqFV : FV → FV → Bool
  | .inf a, .inf b => a == b
  | .fin n1 m1 e1, .fin n2 m2 e2 => decide ((sumInt n1 m1 e1 (!n2) m2 e2).1 = 0)
  | _, _ => false

/-- A compare (R116): 0 with a NaN operand; a quiet one is invalid for a signalling NaN, a signalling one for any. -/
def cmpFV (quiet : Bool) (rel : FV → FV → Bool) (x y : FV) : Word × BitVec 5 :=
  if x.isNaN ∨ y.isNaN then (0, if ¬ quiet ∨ x.isSig ∨ y.isSig then fNV else 0)
  else (b2w (rel x y), 0)

/-- The sign of a value. -/
def FV.neg : FV → Bool
  | .nan _ => false
  | .inf n => n
  | .fin n _ _ => n

/-- FMIN and FMAX (R120): −0 below +0; one NaN operand gives the other operand. -/
def minMaxFV (f : Fmt) (max : Bool) (w1 w2 : Word) : Word × BitVec 5 :=
  let x := FV.decode f w1
  let y := FV.decode f w2
  let low (w : Word) : Word := BitVec.ofNat 64 (w.toNat % 2 ^ f.width)
  let nv : BitVec 5 := if x.isSig ∨ y.isSig then fNV else 0
  if x.isNaN ∧ y.isNaN then (canonNaN f, nv)
  else if x.isNaN then (low w2, nv)
  else if y.isNaN then (low w1, nv)
  else
    let less := ltFV x y || (eqFV x y && x.neg && !y.neg)
    (if less = max then low w2 else low w1, 0)

/-- FCLASS (R116). -/
def classFV (f : Fmt) : FV → Word
  | .nan s => if s then 0x100 else 0x200
  | .inf n => if n then 0x001 else 0x080
  | .fin n m _ =>
    if m = 0 then (if n then 0x008 else 0x010)
    else if m < 2 ^ f.mb then (if n then 0x004 else 0x020)
    else if n then 0x002 else 0x040

/-- Conversion to the other precision (FCVTF). -/
def cvtFV (f : Fmt) (rm : Rm) : FV → Word × BitVec 5
  | .inf n => (packInf f n, 0)
  | .fin n m e => if m = 0 then (packZero f n, 0) else roundF f rm n m e
  | x => nanResult f [x]

/-- Conversion to an integer in [lo, hi] (FCVTI, FCVTIU, R119); out of range and NaN are invalid alone. -/
def toIntFV (rm : Rm) (lo hi : Int) : FV → Word × BitVec 5
  | .nan _ => (BitVec.ofInt 64 hi, fNV)
  | .inf n => (BitVec.ofInt 64 (if n then lo else hi), fNV)
  | .fin n m e =>
    let (k, exact) := roundTo rm n m e 0
    let v : Int := if n then -(k : Int) else k
    if hi < v then (BitVec.ofInt 64 hi, fNV)
    else if v < lo then (BitVec.ofInt 64 lo, fNV)
    else (BitVec.ofInt 64 v, if exact then 0 else fNX)

/-- Conversion from an integer (ICVTF, IUCVTF). -/
def ofIntFV (f : Fmt) (rm : Rm) (v : Int) : Word × BitVec 5 := roundInt f rm v 0 false

/-- FNEG and FABS (R115, R118): any NaN gives the canonical NaN and no flag. -/
def signFV (f : Fmt) (abs : Bool) (w : Word) : Word × BitVec 5 :=
  match FV.decode f w with
  | .nan _ => (canonNaN f, 0)
  | x =>
    let n := w.toNat % 2 ^ (f.width - 1)
    let neg := if abs then false else !x.neg
    (BitVec.ofNat 64 (n + (if neg then 2 ^ (f.width - 1) else 0)), 0)

end Sys2Proof.Machine
end

