-- ==== Sys2Proof/Config.lean ====
section
/-! DEFINITION. What the spec leaves open: constants with no body, so that nothing can be proved of their values.  A
free value is one of these applied to a counter of State (`free`), to the operands it depends on, or both. -/

namespace Sys2Proof

/-- A free 64-bit value. -/
opaque Config.freeWord : Nat → Word

/-- Byte `i` of a free line or block. -/
opaque Config.freeByte : Nat → Nat → Byte

/-- A free choice the module may take or not ("may" of R22). -/
opaque Config.freeBool : Nat → Bool

/-- A free number. -/
opaque Config.freeNat : Nat → Nat

/-- A word of the microcode ROM, whose contents the spec does not give (R175). -/
opaque Config.romWord : Nat → BitVec 128

/-- The forerunner routine a TZ-7400 instruction word is decoded to (R205): its micro-address. -/
opaque Config.forerunnerEntry : BitVec 32 → Nat

/-- SHAKE256 over bytes, giving `n` bytes (R533, R538). -/
opaque Config.shake256 : List Byte → Nat → List Byte

/-- The verification of a signature over bytes with a public key (R532). -/
opaque Config.verify : List Byte → List Byte → List Byte → Bool

/-- The signature of bytes with the private key a number names (R538, R539). -/
opaque Config.sign : Nat → List Byte → List Byte

/-- Bytes derived from the module's device secret for a purpose and an epoch (R535, R538). -/
opaque Config.derive : Nat → Nat → Nat → List Byte

/-- The Svafort anchor of OTP (R531). -/
opaque Config.svfAnchor : List Byte

/-- The device serial number of OTP (R531). -/
opaque Config.serial : BitVec 128

/-- The identity public key and Svafort's signature in its certificate (R538). -/
opaque Config.idKey : List Byte

/-- Svafort's signature in the certificate of the identity key. -/
opaque Config.idCert : List Byte

/-- The alias public key of a start, from IMAGE_DIGEST and the count of starts (R535, R538). -/
opaque Config.aliasKey : List Byte → Nat → List Byte

/-- The match the compressor would take at a position of the input so far, length and distance: R500 says which matches are
allowed, not which are chosen. -/
opaque Config.matchAt : List Byte → Nat → Nat × Nat

/-- The code lengths the compressor builds from symbol counts, of at most so many bits: R500 does not say how equal counts are
broken. -/
opaque Config.codeLens : List Nat → Nat → List Nat

/-- How the compressor writes a list of code lengths with the code-length symbols: symbols with their extra bits' values. -/
opaque Config.clTokens : List Nat → List (Nat × Nat)

/-- The link an NVMe controller sits on, 16 and above for none: what enumeration finds (R442). -/
opaque Config.ctrlrLink : Nat → Nat

/-- Bus, device and function of an NVMe controller within its port, and its MDTS (R453). -/
opaque Config.ctrlrInfo : Nat → BitVec 16 × Byte

/-- Whether an offset of a root port's part of the PCIe window lies in the bridge window that enumeration gave link `l` (R28, R446). -/
opaque Config.bridgeWindow (l : Nat) (off : Nat) : Bool

/-- A namespace as its controller identifies it: whether it can be used, block size and blocks (R442). -/
opaque Config.namespaceInfo : Nat → Nat → Bool × Nat × Nat

end Sys2Proof
end

