-- ==== Sys2Proof/Machine/Crc.lean ====
section
/-! DEFINITION. The reflected CRC-32C of R131 and R331, and the CRC-32 of the compression framings. -/

namespace Sys2Proof.Machine

/-- One bit of a reflected CRC with polynomial `poly`. -/
def crcBit (poly c : BitVec 32) : BitVec 32 := if c.getLsbD 0 then (c >>> 1) ^^^ poly else c >>> 1

/-- One byte of a reflected CRC. -/
def crcByte (poly c : BitVec 32) (b : Byte) : BitVec 32 :=
  let p := crcBit poly
  p (p (p (p (p (p (p (p (c ^^^ b.setWidth 32))))))))

/-- A reflected CRC over bytes, without pre- or post-inversion. -/
def crcOver (poly : BitVec 32) : BitVec 32 → List Byte → BitVec 32
  | c, [] => c
  | c, b :: r => crcOver poly (crcByte poly c b) r

/-- The polynomial of CRC-32C, reflected (R131). -/
def polyC : BitVec 32 := 0x82F63B78

/-- CRC-32C without inversions: the step of CKSM (R131). -/
def crc32cRaw (c : BitVec 32) (l : List Byte) : BitVec 32 := crcOver polyC c l

/-- CRC-32C with initial value 0xFFFF_FFFF and final inversion (R331). -/
def crc32c (l : List Byte) : BitVec 32 := ~~~ crcOver polyC 0xFFFFFFFF l

/-- The tile check of the line at device address `d` (R331). -/
def tileCheck (d : Nat) (data : List Byte) : BitVec 32 := crc32c (toBytes d 8 ++ data)

end Sys2Proof.Machine
end

