-- ==== Sys2Proof/Machine/State.lean ====
section
/-! DEFINITION. The state of the module as plain data: everything the spec gives it, in groups by what survives
what: `live` is what a landing saves, `vol` what the main domain loses, `std` the standby domain, `nv` what keeps
its value without power, `pwr` the sequencers of power, starts and landings. -/

namespace Sys2Proof.Machine

/-! ## Logical processors -/

/-- A bank register: BANK_LO and BANK_HI (R68, R69). -/
structure Bank where
  lo : Word
  hi : Word
deriving DecidableEq, Repr

/-- A zone extent: ZXn_ZONE, ZXn_ABS, ZXn_SIZE (R76). -/
structure Ext where
  zone : Word
  abs : Word
  size : Word
deriving DecidableEq, Repr

/-- A slip: one register context (R53), the task or unbound context it holds (R163), its dirty bits (R166), its
wake latch (R163), and `shadow`, the instructions still to retire before an interrupt (R173).  `level`, `ie` and `ss` are the PSW fields a slip keeps; the other
PSW fields are computed (R56).  `waiting` is 1 after a TTWAIT that found no wake (R165). -/
structure Slip where
  g : Vector Word 32
  f : Vector Word 32
  b : Vector Bank 16
  pc : Word
  fpsr : Word
  level : BitVec 2
  ie : Bool
  ss : Bool
  ustate : Word
  uloop0 : Word
  uloop1 : Word
  u : Vector Word 16
  dirty : BitVec 5
  task : BitVec 6
  unbound : Bool
  latch : Bool
  waiting : Bool
  shadow : BitVec 2
  lastRun : Nat
deriving DecidableEq, Repr

/-- A slip in which every register reads 0 (R67). -/
def Slip.zero : Slip :=
  { g := Vector.replicate 32 0, f := Vector.replicate 32 0, b := Vector.replicate 16 ⟨0, 0⟩, pc := 0, fpsr := 0,
    level := 0, ie := false, ss := false, ustate := 0, uloop0 := 0, uloop1 := 0, u := Vector.replicate 16 0,
    dirty := 0, task := 0, unbound := false, latch := false, waiting := false, shadow := 0, lastRun := 0 }

/-- An exception: its class, detail words and instruction word (R93 to R96), the level it is taken to where its rule
names one (`none`: S or the current level, R141), whether it is one of the synchronous items 7 to 16 of R145, and the
saved PC. -/
structure Exc where
  cls : BitVec 8
  sub : BitVec 16
  faddr : Word
  finfo : Word
  iword : Word
  target : Option (BitVec 2)
  sync : Bool
  pc : Word
deriving DecidableEq, Repr

/-- An entry of an LP's task table (R162).  `fillDue` holds a hardware fill that a wake started (R169), `lastRun` when the task last
stopped running (R141, R164). -/
structure Task where
  valid : Bool
  part : BitVec 6
  addr : Word
  prio : BitVec 3
  wake : Bool
  fillDue : Bool
  lastRun : Nat
deriving DecidableEq, Repr

/-- An unbound task-table entry. -/
def Task.none : Task := ⟨false, 0, 0, 0, false, false, 0⟩

/-- A deferred bus error recorded against an LP (R144): report level, first address, count, and the FINFO of the first (R95). -/
structure Deferred where
  level : BitVec 2
  addr : Word
  count : Nat
  finfo : Word
deriving DecidableEq, Repr

/-- STATE of LP_STATE (R150). -/
inductive LpSt where
  | running
  | idle
  | stopped
  | locked
deriving DecidableEq, Repr

/-- A store held in the gangway store buffer (R215): absolute address, bytes, the scratch attribute (R75), the report
level of a bus error on it (R144), whether it is a CZERO (R253), and the FINFO of a bus error on it (R95). -/
structure GStore where
  addr : Nat
  bytes : List Byte
  scratch : Bool
  level : BitVec 2
  zero : Bool
  finfo : Word
deriving DecidableEq, Repr

/-- What an LP lands with (R360): its slips and per-LP registers (R53), latches (R139), task table (R162), control
page (R149), recorded errors (R144), the LP_TIMER, the interrupts whose entry fell in a discarded window (`held`, R218, R221, R365), the BUS_PRECISE of a device access that a landing abandoned (R365), a
single step due (R56), a timetable decision due (R164; 2 after a TTYIELD), the register groups of a MACHINE_CHECK CHECKPOINT due (R219),
and the twin it is bound to (R228).  `clock` orders the runs
of its slips and tasks. -/
structure Lp where
  slips : Vector Slip 8
  run : Fin 8
  st : LpSt
  tsbpS : Word
  tsbpH : Word
  tsbpK : Word
  part : Word
  zx : Vector Ext 16
  latS : Bool
  latH : Bool
  latK : Bool
  tasks : Map Task
  lock : Word
  lockAddr : Word
  timer : Word
  order : BitVec 2
  deferred : List Deferred
  held : List Exc
  abandoned : Option Exc
  stepDue : Bool
  decision : BitVec 2
  ckptDue : BitVec 5
  twin : Fin 64
  clock : Nat
deriving DecidableEq, Repr

/-- A checkpoint (R218): the slips and the per-LP registers at a window's start, and the exception selected at that boundary and
not yet entered; where that is a MACHINE_CHECK of code 4 or 5, its FINFO names the register groups or the task.  It holds all eight slips: a window may enter or leave K, and then writes two of them (log 47). -/
structure Ckpt where
  slips : Vector Slip 8
  run : Fin 8
  tsbpS : Word
  tsbpH : Word
  tsbpK : Word
  part : Word
  zx : Vector Ext 16
  latS : Bool
  latH : Bool
  latK : Bool
  resv : Option Nat
  exc : Option Exc
deriving DecidableEq, Repr

/-- A checking window (R209 to R212): instructions retired, lane A's signature, the gangway stores in program order,
the checkpoint, the microwords issued (R214), the close reason, and the wakes that WAIT words of its routines consumed, as (slip,
task), which a retry gives back (R185, R213).  `lvq` and `ffb` are what lane A has passed to lane B in the window and lane B need not have
taken yet (R207): items of the load-value queue as (kind, data), the 32-B fetch blocks of the fetch-forward buffer. -/
structure Win where
  retired : Nat
  sig : Word
  stores : List GStore
  ckpt : Ckpt
  words : Nat
  reason : Nat
  took : List (Fin 8 × Nat)
  lvq : List (Nat × List Byte)
  ffb : List Nat
deriving DecidableEq, Repr

/-- A micro-routine in progress on an LP (R181 to R205): the instruction word, whether it is a forerunner routine, its
decode-table entry, the next word, the pending continuation of a delay slot, 0x10000 for END (R190), the loops from the innermost out as
(COUNT, START, LLEN) (R192, R198), the flags Z, N, C, the results of the word just issued (R186), the outstanding load,
multiply or divide as (kind, target, value) and whether a store is outstanding (R188), the words issued since the last
sync word (R195). -/
structure Micro where
  word : BitVec 32
  kind : Bool
  entry : BitVec 4
  upc : Nat
  slot : Option Nat
  loops : List (Nat × Nat × Nat)
  flags : BitVec 3
  pendFlags : Option (BitVec 3)
  pendU : Option (Fin 64 × Word)
  pendG : Option (Reg × Word)
  out : Option (Nat × Fin 64 × Word)
  storeOut : Bool
  since : Nat
deriving DecidableEq, Repr

/-- A device access an LP waits for or has outstanding (R287, R298 to R300): absolute address, size, the register a
load writes (0 to 31 G, 32 to 63 F, 64 none), the halves of a pair still to do, the report level, whether posted, and FINFO
and IWORD of an exception it ends in. -/
structure DevAcc where
  addr : Nat
  size : Nat
  dst : Nat
  pair : Bool
  data : Word
  data2 : Word
  level : BitVec 2
  posted : Bool
  len : Nat
  finfo : Word
  iword : Word
deriving DecidableEq, Repr

/-- A stride detector (R241): its stream (slip, bank), last miss, stride and misses seen. -/
structure Detector where
  slip : Fin 8
  bank : BankNo
  last : Nat
  stride : Int
  seen : Nat
deriving DecidableEq, Repr

/-- A sparing in progress (R223): the failed and the spare twin, whether the reaction is FENCE, the fault class of
the source, what is done. -/
structure Sparing where
  failed : Fin 64
  spare : Option (Fin 64)
  fence : Bool
  cls : Nat
  drained : Bool
  ready : Bool
  lost : List (BitVec 44)
  mmRec : Nat
deriving DecidableEq, Repr

/-- What an LP has in flight on its twin and loses with the main domain: the open window and the closed one not yet
compared (R218), the reservation (R314), injected mismatches to come (R570), a routine in progress and the lane's U16 to U63 (R193), device accesses
(R298 to R300), checking suspended (R232), a debug halt, a freeze or STOP asked for (R236), stopped by a landing freeze, a second mismatch waiting
for its reaction (R222) with its mismatch record, a SPARE or FENCE of class 0 or 2 that waits for the next window
boundary (R560: whether FENCE, and the source), a sparing (R223), the halves of 128-bit accesses (R312), and the signature items of
the instruction in progress (R210).  `fails` are the mismatches of the oldest window not yet matched (R220, R222), `badCkpt` the register
groups of R91 in which the checkpoint file holds uncorrectable words (R219); `releasing` are the
stores of matched windows that wait for their lines (R216, R258, R259), oldest first; `entering` an exception whose save is stored and
whose entry record is still to be read (R135 step 4): the level it enters, the exception, the level it came from. -/
structure LpVol where
  win : Option Win
  closed : Option Win
  releasing : List GStore
  entering : Option (BitVec 2 × Exc × BitVec 2)
  resv : Option Nat
  inject : List Nat
  micro : Option Micro
  laneU : Map Word
  devLoad : Option DevAcc
  devStore : Option DevAcc
  posted : List DevAcc
  unchecked : Bool
  halted : Bool
  freeze : Bool
  failed : Bool
  ask : Option (Bool × Nat)
  mmIdx : Nat
  sparing : Option Sparing
  latch128 : Option (Nat × Word)
  stage128 : Option (Nat × Word)
  frozen : Bool
  fails : Nat
  badCkpt : BitVec 5
  items : List (Nat × Nat × List Word)
  detectors : List Detector
deriving DecidableEq, Repr

/-- An LP with nothing in flight. -/
def LpVol.none : LpVol :=
  { win := .none, closed := .none, releasing := [], entering := .none, resv := .none, inject := [], micro := .none, laneU := [], devLoad := .none, devStore := .none,
    posted := [], unchecked := false, halted := false, freeze := false, frozen := false, failed := false, ask := .none, mmIdx := 0, sparing := .none,
    latch128 := .none, stage128 := .none, fails := 0, badCkpt := 0, items := [], detectors := [] }

/-- An LP at reset, bound to twin `t`. -/
def Lp.fresh (t : Fin 64) : Lp :=
  { slips := Vector.replicate 8 Slip.zero, run := 0, st := .running, tsbpS := 0, tsbpH := 0, tsbpK := 0, part := 0,
    zx := Vector.replicate 16 ⟨0, 0, 0⟩, latS := false, latH := false, latK := false, tasks := [], lock := 0,
    lockAddr := 0, timer := 0, order := 0, deferred := [], held := [], abandoned := none, stepDue := false, decision := 0, ckptDue := 0, twin := t, clock := 0 }

/-! ## Caches and homes -/

/-- The coherence state of a line in a cache (R254). -/
inductive CSt where
  | i
  | s
  | e
  | o
  | m
deriving DecidableEq, Repr

/-- A line in an L2 or L3 slice: state, valid sectors (R238), scratch bit (R326), the epoch in which it became dirty
(R329), a WBK sent and not acknowledged (R257), a mooring (R267), and its way (R237, R242). -/
structure CLine where
  st : CSt
  valid : BitVec 4
  scratch : Bool
  epoch : Nat
  wbk : Bool
  moored : Bool
  way : Nat
deriving DecidableEq, Repr

/-- A line a cache does not hold. -/
def CLine.none : CLine := ⟨.i, 0, false, 0, false, false, 0⟩

/-- The snoops of R256. -/
inductive Snoop where
  | shared
  | own
  | cur
  | inv
  | invf
  | clean
deriving DecidableEq, Repr

/-- The requests of R255. -/
inductive ReqKind where
  | rds
  | rdo
  | upg
  | rdoz
  | rdcur
  | wrinvf
  | wrinvp
  | clean
  | inv
deriving DecidableEq, Repr

/-- A request at a home: kind, deck-wide requester (R260), line, write data and its offset. -/
structure Req where
  kind : ReqKind
  req : Nat
  line : Nat
  off : Nat
  data : List Byte
deriving DecidableEq, Repr

/-- An open transaction (R259, R262): the request, the snooped agents of this module (by number) and other modules (as
1024 + module) still to answer, the modules that answered WB_PENDING and whose WBK the home waits for (R264), what the answers
said, and the attributes of the dirty copy they met. -/
structure Txn where
  req : Req
  wait : List Nat
  wbp : List Nat
  hit : Bool
  supplied : Bool
  dirty : Bool
  scratch : Bool
  epoch : Nat
deriving DecidableEq, Repr

/-- A completion on its way to a requester (R258): the state granted (I: none), whether it is a RETRY, whether data
come with it, and of data from a dirty copy its scratch bit and epoch (R75, R329). -/
structure Grant where
  req : Req
  st : CSt
  retry : Bool
  data : Bool
  dirty : Option (Bool × Nat)
deriving DecidableEq, Repr

/-- A manifest entry (R264): holders, DIRTY, its way, and the modules whose WBK for the line the home has accepted since they last
answered a snoop or sent a request for it.  It is pinned while a transaction for its line is open (R265). -/
structure Man where
  holders : BitVec 8
  dirty : Bool
  way : Nat
  wbk : BitVec 8
deriving DecidableEq, Repr

/-- No module named. -/
def Man.none : Man := ⟨0, false, 0, 0⟩

/-- A home agent (R259 to R261): its queue, the last winner, the tickets of RETRY answers, oldest first, and the lines to be marked
poisoned when their open transaction has closed (R225, R336). -/
structure Home where
  queue : List Req
  last : Nat
  tickets : List (Nat × Nat)
  poisons : List Nat
deriving DecidableEq, Repr

/-- A home agent with nothing waiting. -/
def Home.none : Home := ⟨[], 0, [], []⟩

/-- What the caches and the coherence protocol hold: the copies in the L2s and L3 slices by line × 128 + agent, the lines of the
L1s (R237) with their valid sectors, the replacement trees by cache × 2^18 + set (R239, R265), open transactions, responses on
their way home (agent, line, response), completions on their way to requesters, WBKs not acknowledged are in the
copies, snoops held by a mooring (agent, line, snoop), the homes by port, the manifest by line and its sets in error (port,
set), and the current epoch of the dirty-age bound (R329). -/
structure Caches where
  dir : Map CLine
  l1 : Map (Option (Nat × BitVec 4))
  plru : Map Nat
  txns : List Txn
  resps : List (Nat × Nat × Resp)
  grants : List Grant
  heldSnoops : List (Nat × Nat × Snoop)
  homes : Map Home
  manifest : Map Man
  manBad : List (Nat × Nat)
  epoch : Nat
deriving DecidableEq, Repr

/-! ## The channel and Florix -/

/-- A virtual channel function (R402, R403, R410, R441): its STATE, whether CLOSING ends in DISABLED, its partition, the
highest version allowed and the one negotiated, SHARE, JOURNAL_CAP, the target table's address and entries, the sources of its
vectors by local number, and the cached table: doublewords 0, 1 and KEY. -/
structure Vcf where
  st : Nat
  dis : Bool
  part : Nat
  maxver : Nat
  version : Nat
  share : Nat
  cap : Nat
  table : Nat
  entries : Nat
  vecs : Map Nat
  targets : Map (Word × Word × Word)
deriving DecidableEq, Repr

/-- A disabled VCF. -/
def Vcf.off : Vcf :=
  { st := 0, dis := false, part := 0, maxver := 0, version := 0, share := 0, cap := 0, table := 0, entries := 0, vecs := [],
    targets := [] }

/-- A queue pair of the pool (R409, R414 to R419): its VCF and local number, QSTATE, zone bases and entries of its queues,
its vector, coalescing, SQ tail and SQ_ACCEPT, CQ head, next CQ slot with its phase, and completions not yet signalled. -/
structure Qp where
  vcf : Nat
  loc : Nat
  st : Nat
  sq : Nat
  sqN : Nat
  cq : Nat
  cqN : Nat
  vec : Option Nat
  coalCount : Nat
  coalUs : Nat
  tail : Nat
  accept : Nat
  head : Nat
  cqTail : Nat
  phase : Bool
  unsig : Nat
deriving DecidableEq, Repr

/-- A queue pair of no VCF. -/
def Qp.free : Qp :=
  { vcf := 0, loc := 0, st := 0, sq := 0, sqN := 0, cq := 0, cqN := 0, vec := none, coalCount := 0, coalUs := 0, tail := 0,
    accept := 0, head := 0, cqTail := 0, phase := true, unsig := 0 }

/-- An accepted operation (R418, R426, R428, R429, R441): its descriptor, queue pair, the chain it is a member of, the members
of the chain it heads, the target entries it was checked against, whether it has started, a fixed result (status, DONE,
DETAIL) that waits for a CQ slot, its DEGRADED and RAW flags, the first failed status of its chain, and its completion. -/
structure Op where
  desc : List Byte
  pool : Nat
  head : Option Nat
  members : List Nat
  target : Option (Word × Word × Word)
  mirror : Option (Word × Word × Word)
  checked : Bool
  started : Bool
  fin : Option (Nat × Nat × Nat)
  degraded : Bool
  raw : Bool
  broken : Nat
  cpl : List Byte
deriving DecidableEq, Repr

/-- A journal entry (R432, R433). -/
structure Jent where
  st : Nat
  phase : Bool
  reexec : Bool
  vcf : Nat
  qp : Nat
  sqSlot : Nat
  cqSlot : Nat
  seq : Nat
  done : Nat
  sgl : Nat
  status : Nat
  detail : Nat
  crc : BitVec 32
  out : Nat
  ts : Word
  tb : Word
deriving DecidableEq, Repr

/-- A free journal entry. -/
def Jent.free : Jent :=
  { st := 0, phase := false, reexec := false, vcf := 0, qp := 0, sqSlot := 0, cqSlot := 0, seq := 0, done := 0, sgl := 0,
    status := 0, detail := 0, crc := 0, out := 0, ts := 0, tb := 0 }

/-- A step in flight (R436, R439): its channel engine, the input it covers, the memory it may touch, the controller that runs
its NVMe part (`none` with `local` false: it waits for a path), whether its local and remote parts are complete, its Florix
request, the result that fixes the operation (status, DONE, DETAIL), and what an engine step journals: output bytes and TSTATE, the
engine that runs it. -/
structure Step where
  eng : Nat
  off : Nat
  len : Nat
  mem : List (Nat × Nat)
  ctrlr : Option Nat
  localDone : Bool
  remoteDone : Bool
  rqn : Option (Nat × Nat)
  fin : Option (Nat × Nat × Nat)
  out : Nat
  ts : Word
  unit : Option Nat
deriving DecidableEq, Repr

/-- The channel's landed state: VCFs, granted queue pairs by pool index, accepted operations by journal index, the last
acceptance number, the operations whose result waits for a CQ slot, and the next path of each group under ROUND (R444). -/
structure Chan where
  vcfs : Map Vcf
  qps : Map Qp
  ops : Map Op
  seq : Nat
  waitCq : List Nat
  nextPath : Map Nat
deriving DecidableEq, Repr

/-- A sequenced frame not yet acknowledged (R474, R475): SEQ, type, payload, transmissions on the current link, and when a SACK last
had it sent again. -/
structure FlxFrame where
  seq : Nat
  type : Nat
  payload : List Byte
  tries : Nat
  sackAt : Option Word
deriving DecidableEq, Repr

/-- A request of this side in flight (R476): its operation, whether a read, window and offset, length, the memory its data go to,
the bytes returned, and a STATUS that waits for the frames before it (status, count, SEQ). -/
structure FlxOut where
  op : Nat
  read : Bool
  window : Nat
  woff : Nat
  len : Nat
  mem : List (Nat × Nat)
  got : Nat
  status : Option (Nat × Nat × Nat)
deriving DecidableEq, Repr

/-- A request of the peer begun and not completed (R477, R478): its window, offset, length, whether a read, the fragments
placed, the bytes placed, and the status that ends it early. -/
structure FlxIn where
  read : Bool
  window : Nat
  woff : Nat
  len : Nat
  frags : List Nat
  placed : Nat
  fail : Option Nat
deriving DecidableEq, Repr

/-- A crossing (R465 to R477): the doublewords of its entry as XSYNC clamped it, STATE, the reason of a REFUSE, the negotiated
version, the current link (an index into LINKS), EPOCH, the last SEQ sent, ACK and the later SEQs received, the frames not yet
acknowledged, the last RQN, the requests both ways, the request record, whether this side held the crossing before (REJOIN), the epoch
proposed in its last HELLO, an XCLOSE (1 waits, 2 CLOSE sent), whether a CLOSE received waits, the sends of unsequenced frames in the epoch, and whether LANDING_WAIT_MS
runs for it from a commit point (R487). -/
structure Xing where
  entry : List Word
  st : Nat
  reason : Nat
  version : Nat
  link : Nat
  epoch : Nat
  seq : Nat
  ack : Nat
  later : List Nat
  unacked : List FlxFrame
  rqn : Nat
  outs : Map (Option FlxOut)
  ins : Map (Option FlxIn)
  record : List (Nat × Nat × Nat)
  rejoin : Bool
  proposed : Nat
  closing : Nat
  peerClosed : Bool
  unseq : Nat
  resumed : Bool
deriving DecidableEq, Repr

/-- A crossing not in use. -/
def Xing.none : Xing :=
  { entry := [], st := 0, reason := 0, version := 0, link := 0, epoch := 0, seq := 0, ack := 0, later := [], unacked := [],
    rqn := 0, outs := [], ins := [], record := [], rejoin := false, proposed := 0, closing := 0, peerClosed := false,
    unseq := 0, resumed := false }

/-! ## The groups -/

/-- A mapped interleave set (R323): members by position, granule in bytes, share and base in GiB, number. -/
structure MSet where
  ports : List Nat
  granule : Nat
  share : Nat
  base : Nat
  num : Nat
deriving DecidableEq, Repr

/-- What a landing saves and a resume restores (R360): the processors, the control registers that hold a value other
than their reset value, the UNCHECKED_SINCE flags of the twins (R232), the lock tags (agent, line, way) of R243, the
counters of the tally with the statistics of the channel, engines and crossings, live (by register offset, crossings from 2^32 on) and
latched (R622), the effective plan fields by tag × 2^16 + index (R594 to R600), the mapped interleave sets, the
timebase, and what an attestation report counts since the last cold start, with IMAGE_DIGEST and the
measurements and, by section type, the SVNs + 1 of the running image (R534, R539); `linesLost` are the lines a sparing lost that wait for an
LP to run their partition: partition and first range (R143). -/
structure Live where
  lps : Vector Lp 64
  regs : Map Word
  unchecked : BitVec 64
  lockTags : List (Nat × Nat × Nat)
  tally : Map Word
  stats : Map Word
  xlatched : Map Word
  changed : Map Bool
  tallySeq : Nat
  tallyStart : Word
  linesLost : List (Nat × Word)
  ch : Chan
  xs : Map Xing
  plan : Map Nat
  sets : List MSet
  time : Word
  landings : Nat
  resumes : Nat
  debugSince : Nat
  digest : List Byte
  measures : List (List Byte)
  svns : Map Nat
deriving DecidableEq, Repr

/-- A parked or held line write (R342, R343): device address / 256, data, tile check, scratch bit, poison. -/
structure Park where
  dev : Nat
  data : List Byte
  check : BitVec 32
  scratch : Bool
  poison : Bool
deriving DecidableEq, Repr

/-- What the main domain holds only while it runs. `held` are the writes held at a full park area, by port (R343);
`store` are the loaded words of the patch RAM and the forerunner control store, by micro-address (R175);
`scrub` is the next device line of a port's scrub (R339);
`fetched` are the descriptors fetched and not yet accepted, by queue pair; `steps` the steps in flight by journal index; `ctxs`
the contexts of engine operations (R497, R515): the engine that holds the context or key (16 and above a cipher engine, 99 none),
the input reached and the output produced; `dumps` the tally records being written and
waiting, with their slots, `skipped` the records abandoned (R629); `peers` are the modules reached through each causeway link, as a mask, and whether they close a ring (R276, R286);
`badWords` the words of the twins' control stores with an uncorrectable error, as (twin, micro-address) (R176);
`heldFor` the operations, by journal index, and 2^22 for the tally, whose writes a full park area holds unacknowledged, with the port
(R304, R343); `dumpSent` that the record being written waits for that alone;
`turns` are the steps each VCF has started in the scheduling round and the local number after the queue pair served last (R440),
`verifying` the controllers whose reset a resume waits for (R445), `waited` the queue pairs whose next descriptor's wait is counted
(R417), `mfWait` the management command that waits for memory, with its arguments (R410), `flxWait` the Florix command that does (R493). -/
structure Vol where
  lps : Vector LpVol 64
  caches : Caches
  held : Map (List Park)
  sampleDue : List (Nat × Nat)
  scrub : Map Nat
  store : Map (BitVec 128)
  peers : Map (Nat × Bool)
  fetched : Map (List (List Byte))
  steps : Map (Option Step)
  ctxs : Map (Nat × Nat × Nat)
  dumps : List (Nat × List Byte)
  skipped : Nat
  badWords : List (Nat × Nat)
  heldFor : List (Nat × Nat)
  dumpSent : Bool
  turns : Map (Nat × Nat)
  verifying : List Nat
  waited : List Nat
  mfWait : Option (Word × Word × Word)
  flxWait : Option Word
deriving DecidableEq, Repr

/-- Main memory.  `cur` is the value every agent of the deck reads, `media` what the expanders hold; they differ only
in lines some cache holds dirty.  A byte of this module's memory has key port × 2^40 + device address (R324); a byte
of another module that a cache here holds has key 2^56 + absolute address.  `poison` and `mpoison` are the poisoned
lines of each (by key / 256), `checks` the stored tile checks that are not the good one (R331, R333), `ckOld` the checks
the expander still holds for lines whose new check waits in the check cache, `ckAge` the epochs in which they began to
wait (R329, R337). -/
structure Mem where
  cur : Memory
  media : Memory
  poison : Map Bool
  mpoison : Map Bool
  checks : Map (Option (BitVec 32))
  ckOld : Map (Option (BitVec 32))
  ckAge : Map Nat
deriving DecidableEq, Repr

/-- A stray (R369, R379): absolute line number, data, the CRC of R379, poison. -/
structure Stray where
  line : Nat
  data : List Byte
  check : BitVec 32
  poison : Bool
deriving DecidableEq, Repr

/-- STATE of a landing slot (R378). -/
inductive SlotSt where
  | empty
  | opened
  | sealed
  | consumed
deriving DecidableEq, Repr

/-- A landing slot (R377, R378): the state line, the record body, the strays in index order (R379), the accesses
abandoned by partition (R365), and the landed image (R360).  `ident` is IDENTITY, `deck` DECK. -/
structure Slot where
  st : SlotSt
  seq : Word
  cause : Word
  tbTrigger : Word
  tbFrozen : Word
  tbSeal : Word
  digest : List Byte
  epoch : Nat
  ident : Word
  deck : Word
  dsc : Map (BitVec 32)
  pwrgoodLow : Bool
  strays : List Stray
  abandoned : Map Nat
  image : Option Live
deriving DecidableEq, Repr

/-- An empty slot. -/
def Slot.blank : Slot :=
  { st := .empty, seq := 0, cause := 0, tbTrigger := 0, tbFrozen := 0, tbSeal := 0, digest := [], epoch := 0, ident := 0,
    deck := 0, dsc := [], pwrgoodLow := false, strays := [], abandoned := [], image := none }

/-- The RTU's one-time-programmable memory (R531), without the secrets, which are constants of the module: the owner
anchor (empty while none is programmed), the life-cycle fuses, the key epoch, the floors of KEEL, UCODE, DECODE and PLAN,
the retirement fuses. -/
structure Otp where
  owner : List Byte
  life : BitVec 3
  epoch : Nat
  floors : List Nat
  retired : Bool
deriving DecidableEq, Repr

/-- The configuration copies (R376): the retire map (R39), what is recorded of each port (serial number and planned
capacity, R664; Dirty Shutdown Count, R346), the last sealed landing (`landed`: there has been one), the timebase mark
(R389), the Florix epoch counts (R471), the last configuration report, and the RTU's pending requests (R540: LC_PENDING
and the owner anchor; FULL; SVN_COMMIT). -/
structure Cfg where
  retired : BitVec 64
  ports : Map (Option (Word × Nat))
  dsc : Map (Option (BitVec 32))
  landed : Bool
  seq : Word
  sealEpoch : Nat
  cause : Nat
  slot : Bool
  landingUs : Nat
  strays : Nat
  late : Bool
  tbMark : Option Word
  flxEpochs : Map Nat
  report : List (Word × Word × Word)
  lcPending : Nat
  lcAnchor : List Byte
  fullPending : Bool
  svnPending : Option (List Nat)
deriving DecidableEq, Repr

/-- What keeps its value without power: OTP and the landing store.  `parks` are the park areas by port (R342), `lsRaw`
bytes written through the landing-store window (R29) that no record holds, `lsCount` the write counts of its lines and `lsBad` the lines
whose tags fail (R375), `carried` the carried strays (R384), `resumed` the slot from which
the module last resumed (R377), `journal` the channel journal (R432). -/
structure Nv where
  parks : Map (List Park)
  lsRaw : Map (Option Byte)
  lsCount : Map Nat
  lsBad : Map Bool
  otp : Otp
  cfg : Cfg
  slotA : Slot
  slotB : Slot
  carried : List Stray
  resumed : Option Bool
  journal : Map Jent
deriving DecidableEq, Repr

/-- The service port (R654, R655): the offset, the access whose answer waits (0 none, 1 READ, 2 WRITE, 3 SET_ADDR),
its status byte and data, the bytes the last private read returned, and a dynamic address. -/
structure Svc where
  addr : BitVec 32
  op : Nat
  status : Byte
  data : Word
  out : List Byte
  dyn : Option (BitVec 7)
deriving DecidableEq, Repr

/-- A unit of the module that a reaction of the collector fences or retries (R560, R568). -/
inductive UnitKind where
  | twin
  | port
  | cwy
  | pcie
  | flx
  | chEng
  | cmp
  | cip
deriving DecidableEq, Repr

/-- The standby domain.  `fc` holds the collector's registers and MOD_STATUS; `reports` the events reported to the
collector and not yet counted; `mmNext` the next mismatch record (R582); `logSince` the log
entries written since LOG_WRAP was cleared (R574); `starts` the window start times by source
(R557) on the fault clock `clock`; `fenced` the fenced units with their classes; `readmits` the re-admissions of a unit
since the last cold start (R568), by kind × 1024 + unit; `injected` the units whose next event an injected error causes (R570);
`reload` a reload of R569 due at the next resume, `policy` that the collector's registers hold the fault policy since the standby rails came
up (R573); then the pins as the module
drives or sees them (R648: PWRFAIL_N low for 1 µs, MODRST_N low for 1 µs), the standby rails, the service port, and
what the last JTAG instruction or probe access put into the TAP's data register (R545, R657). -/
structure Std where
  fc : Map Word
  reports : List (Nat × BitVec 32)
  mmNext : Nat
  logSince : Nat
  starts : Map Nat
  clock : Nat
  fenced : List (UnitKind × Nat × Nat)
  readmits : Map Nat
  injected : List (UnitKind × Nat)
  reload : Bool
  policy : Bool
  standby : Bool
  pwrgood : Bool
  pwrfail : Bool
  modrst : Bool
  landed : Bool
  faultHold : Bool
  thermtrip : Bool
  svc : Svc
  tap : Option Word
deriving DecidableEq, Repr

/-- Where the module stands between power-on and RUN: `off` no start has begun or the main domain is off; `waiting` a start
waits for PWRFAIL_N (R647); `training` steps 3 to 5 of a start; `noImage` R587; `startHold` R567; `landing`; `landed`,
sealed, whether POWER_STATE reads LANDED or HOLD; `unsealed` the end of a landing that could not be sealed (R374). -/
inductive Phase where
  | off
  | waiting
  | training
  | noImage
  | startHold
  | running
  | landing
  | landed
  | unsealed
deriving DecidableEq, Repr

/-- A landing in progress (R364): its causes (R361), the slot it writes, the members asked to RECALL, those that have
answered and those that sent LEFT, whether outputs are quiesced (step 2), lines homed elsewhere are out and step 4 is
complete, the recall is closed (R368) and closed late, the ports whose GPF phases are open, the Dirty Shutdown Counts
they answered, the strays written, a failed stack (R374), a MODRST_N pulse to take effect at the seal (R362), the stacks
whose write acknowledgement is awaited, the accesses abandoned by partition. -/
structure Landing where
  cause : BitVec 3
  first : Nat
  tbTrigger : Word
  tbFrozen : Word
  members : BitVec 8
  answered : BitVec 8
  left : BitVec 8
  quiesced : Bool
  frozen : Bool
  linesDone : Bool
  recallClosed : Bool
  late : Bool
  gpfOn : Bool
  gpf1 : BitVec 16
  gpf2 : BitVec 16
  dsc : Map (BitVec 32)
  strays : List Stray
  badStack : Bool
  acks : BitVec 4
  abandoned : Map Nat
deriving DecidableEq, Repr

/-- No landing in progress. -/
def Landing.none : Landing :=
  { cause := 0, first := 0, tbTrigger := 0, tbFrozen := 0, members := 0, answered := 0, left := 0, quiesced := false,
    frozen := false, linesDone := false, recallClosed := false, late := false, gpfOn := false, gpf1 := 0, gpf2 := 0,
    dsc := [], strays := [], badStack := false, acks := 0, abandoned := [] }

/-- The PMBus side of a compute die (R641 to R643): the rail voltage last read and the voltage commanded, in mV, whether the
regulators report ULINEAR16, and whether the voltage was reported not to reach its target. -/
structure Rail where
  read : Nat
  command : Nat
  ulinear : Bool
  late : Bool
deriving DecidableEq, Repr

/-- The power and start sequencers.  `modid` is the strap as sampled (R30), `part` and `stepping` the fused numbers
(R2, R3), `lpsOn` whether processors run.  A start: what it finds (`si`), whether it is a resume, the slot of the image
in use and those already tried (R592), the reason of a cold start (R392), the timebase when PWRGOOD rose (R387) and
whether it counted without a break; `due` a start that a pulse of MODRST_N during a landing asks for (R362); `rst` a
MODRST_N assertion in RUN (R392); `rails` and `lanes` the voltages and lane clocks of R642 in MHz by twin, wanted and
running; `overRow` the updates in a row above 1,100 W, `readings` whether a reading was taken since the start (R42); `endpoints`
ENDPOINTS_RESET (R390); `perstPcie` and `perstCxl` the PERST lines that are asserted, by PCIe link and by memory port (R650);
`auto` a start that a quiet period began (R566); `startAt` the fault clock at the start (R398). -/
structure Pwr where
  modid : Fin 8
  part : BitVec 4
  stepping : Byte
  lpsOn : Bool
  phase : Phase
  land : Landing
  si : Option StartInput
  resume : Bool
  imgB : Bool
  tried : List Bool
  cold : Nat
  unbroken : Bool
  upSince : Nat
  due : Bool
  rst : Bool
  stackHold : Bool
  epochRaised : Bool
  poisoned : Bool
  replayed : Nat
  endpoints : Bool
  perstPcie : BitVec 16
  perstCxl : BitVec 16
  rails : Map Rail
  lanes : Map (Nat × Nat)
  overRow : Nat
  readings : Bool
  auto : Bool
  startAt : Nat
deriving DecidableEq, Repr

/-- The state of the module. `pending` is the queue of commands; `free` counts the free values taken. -/
structure State where
  pending : List Instr
  free : Nat
  live : Live
  vol : Vol
  mem : Mem
  std : Std
  nv : Nv
  pwr : Pwr
deriving DecidableEq, Repr

/-- The landed state before the first start: every LP at its reset values and bound to the twin of its number. -/
def Live.reset : Live :=
  { lps := Vector.ofFn Lp.fresh, regs := [], unchecked := 0, lockTags := [], tally := [], stats := [], xlatched := [],
    changed := [], tallySeq := 0, tallyStart := 0, linesLost := [], ch := ⟨[], [], [], 0, [], []⟩, xs := [], plan := [], sets := [], time := 0,
    landings := 0, resumes := 0, debugSince := 0, digest := [], measures := [], svns := [] }

/-- The main domain holds nothing. -/
def Vol.reset : Vol :=
  { lps := Vector.replicate 64 LpVol.none, caches := ⟨[], [], [], [], [], [], [], [], [], [], 0⟩, held := [], sampleDue := [],
    scrub := [], store := [], peers := [], fetched := [], steps := [], ctxs := [], dumps := [], skipped := 0, badWords := [], heldFor := [],
    dumpSent := false, turns := [], verifying := [], waited := [], mfWait := none, flxWait := none }

/-- Memory with nothing written. -/
def Mem.reset : Mem := { cur := [], media := [], poison := [], mpoison := [], checks := [], ckOld := [], ckAge := [] }

/-- The standby domain as its rails come up (R41): POWER_STATE reads OFF, PWRGOOD is low. -/
def Std.reset : Std :=
  { fc := [(0x18, 5)], reports := [], mmNext := 0, logSince := 0, starts := [], clock := 0, fenced := [], readmits := [],
    injected := [], reload := false, policy := false, standby := true, pwrgood := false, pwrfail := false, modrst := false, landed := false,
    faultHold := false, thermtrip := false, svc := ⟨0, 0, 0, 0, [], none⟩, tap := none }

/-- What a new module keeps without power: a blank OTP in life cycle FACTORY, an empty landing store. -/
def Nv.reset : Nv :=
  { parks := [], lsRaw := [], lsCount := [], lsBad := [],
    otp := { owner := [], life := 0, epoch := 0, floors := [0, 0, 0, 0], retired := false },
    cfg := { retired := 0, ports := [], dsc := [], landed := false, seq := 0, sealEpoch := 0, cause := 0, slot := false,
             landingUs := 0, strays := 0, late := false, tbMark := none, flxEpochs := [], report := [], lcPending := 0,
             lcAnchor := [], fullPending := false, svnPending := none },
    slotA := Slot.blank, slotB := Slot.blank, carried := [], resumed := none,
    journal := [] }

/-- The sequencers before the first start; every PERST line is asserted (DESIGN CHOICE, log 57). -/
def Pwr.reset : Pwr :=
  { modid := 0, part := 0, stepping := 0x10, lpsOn := false, phase := .off, land := Landing.none, si := none, resume := false,
    imgB := false, tried := [], cold := 0, unbroken := false, upSince := 0, due := false, rst := false, stackHold := false,
    epochRaised := false, poisoned := false, replayed := 0, endpoints := false, perstPcie := 0xFFFF,
    perstCxl := 0xFFFF, rails := [], lanes := [], overRow := 0,
    readings := false, auto := false, startAt := 0 }

/-- The module right after reset: the standby rails just up, the main domain off, no start begun (R41, R647). -/
def State.reset : State :=
  { pending := [], free := 0, live := Live.reset, vol := Vol.reset, mem := Mem.reset, std := Std.reset, nv := Nv.reset,
    pwr := Pwr.reset }

/-- Why a command stops the module.  There is no such reason: every fault the spec describes is an effect on the
state.  Safe. -/
inductive Fault where
deriving DecidableEq, Repr

/-- Why a command is refused. -/
inductive Refusal where
  /-- Raised by an arm of `exec` whose command has no meaning yet.  Safe. -/
  | notModelled (mnemonic : String)
deriving DecidableEq, Repr

end Sys2Proof.Machine
end

