-- ==== Sys2Proof/Machine/Regs.lean ====
section
/-! DEFINITION. Control space: which registers exist at which offset of the window (R32, R33), their fields' access
codes (R16) and reset values, and the one pair of operations that read and write a stored register. -/

namespace Sys2Proof.Machine

/-- The access codes of a register's fields, as masks (R16): read-write, keel-only, write-one-to-clear, read-clears.
Every other bit is RO or WO.  `reset` is the Reset column. -/
structure RegInfo where
  rw : Word
  ko : Word
  w1c : Word
  rc : Word
  reset : Word
deriving DecidableEq, Repr

/-- The mask of bits `hi`:`lo`. -/
def msk (hi lo : Nat) : Word := field hi lo (2 ^ (hi + 1 - lo) - 1)

/-- A register whose every field is RO or WO. -/
def roReg : RegInfo := ⟨0, 0, 0, 0, 0⟩

/-- The 8-byte register `n` of an array of `cnt` from `base` with stride `st`, if `off` names one. -/
def arrIdx (base cnt st off : Nat) : Option Nat :=
  if base ≤ off ∧ (off - base) % st = 0 ∧ (off - base) / st < cnt then some ((off - base) / st) else none

/-- Offsets of the blocks in the control-space window (R32). -/
def offMod : Nat := 0x000000
/-- CFG (R32). -/
def offCfg : Nat := 0x010000
/-- FC (R32). -/
def offFc : Nat := 0x020000
/-- LAND (R32). -/
def offLand : Nat := 0x030000
/-- RTU mailbox (R32). -/
def offRtu : Nat := 0x040000
/-- TALLY (R32). -/
def offTally : Nat := 0x050000
/-- EVT (R32). -/
def offEvt : Nat := 0x060000
/-- LP control pages (R32, R149). -/
def offLp (lp : Nat) : Nat := 0x080000 + lp * 0x1000
/-- COH (R32). -/
def offCoh : Nat := 0x100000
/-- The PM page of port `n` (R348). -/
def offPm (n : Nat) : Nat := 0x200000 + n * 0x10000
/-- PCIE (R32). -/
def offPcie : Nat := 0x300000
/-- CH, the management function (R32). -/
def offCh : Nat := 0x400000
/-- The doorbell page of VCF `n` (R32). -/
def offVcf (n : Nat) : Nat := 0x800000 + n * 0x1000
/-- The page of compression engine `n` (R32). -/
def offCmp (n : Nat) : Nat := 0xC00000 + n * 0x1000
/-- The page of cipher engine `n` (R32). -/
def offCip (n : Nat) : Nat := 0xC10000 + n * 0x1000
/-- The page of Florix port `n` (R32). -/
def offFlx (n : Nat) : Nat := 0xD00000 + n * 0x10000
/-- CWY (R32). -/
def offCwy : Nat := 0xE00000
/-- UC (R32). -/
def offUc : Nat := 0xF00000

/-- MOD registers (R36 to R45). -/
def regMod (o : Nat) : Option RegInfo :=
  if o = 0x20 then some { roReg with w1c := msk 5 0 }
  else if o = 0x38 then some { roReg with ko := msk 55 48, reset := field 55 48 0x5F }
  else if o % 8 = 0 ∧ o ≤ 0x38 then some roReg else none

/-- EVT registers (R155, R156). -/
def regEvt (o : Nat) : Option RegInfo :=
  if o = 0x8000 then some roReg
  else if o % 8 = 0 ∧ o < 0x8000 then
    some { roReg with rw := msk 0 0 ||| msk 10 2 ||| msk 23 12, w1c := msk 1 1, reset := field 4 3 2 }
  else none

/-- LP control page (R149 to R153). -/
def regLp (o : Nat) : Option RegInfo :=
  if o = 0x000 then some { roReg with rc := msk 9 8 }
  else if o = 0x008 ∨ o = 0x010 ∨ o = 0x018 then some roReg
  else if o = 0x020 then some { roReg with rw := msk 63 0 } else none

/-- COH registers (R279 to R283). -/
def regCoh (o : Nat) : Option RegInfo :=
  if o = 0 then some { roReg with ko := msk 12 0, reset := 0x1720 }
  else if (arrIdx 0x100 64 8 o).isSome then some { roReg with rw := msk 2 0 ||| msk 6 4, reset := 0x8 }
  else if (arrIdx 0x400 16 8 o).isSome then some { roReg with rw := msk 0 0 ||| msk 6 4, reset := 0x8 }
  else if (arrIdx 0x500 16 8 o).isSome then some { roReg with w1c := msk 48 48 } else none

/-- CWY registers (R284 to R286). -/
def regCwy (o : Nat) : Option RegInfo :=
  if (arrIdx 0 4 8 o).isSome ∨ o = 0x40 then some roReg else none

/-- PM registers of one port (R348 to R358). -/
def regPm (o : Nat) : Option RegInfo :=
  if o = 0x008 then some { roReg with ko := msk 0 0 ||| msk 15 8, reset := field 15 8 0x18 }
  else if o = 0x028 then some { roReg with w1c := msk 6 0 }
  else if o % 8 = 0 ∧ o ≤ 0x48 then some roReg else none

/-- UC registers (R178 to R201). -/
def regUc (o : Nat) : Option RegInfo :=
  if o = 0 then some roReg
  else if o = 8 then some { roReg with w1c := msk 0 0 }
  else if (arrIdx 0x100 64 8 o).isSome ∨ (arrIdx 0x400 16 8 o).isSome then some roReg else none

/-- TALLY registers (R633 to R638). -/
def regTally (o : Nat) : Option RegInfo :=
  if o = 0 then some { roReg with ko := msk 23 0, reset := 0xF4240 }
  else if o = 8 then some { roReg with w1c := msk 2 1 }
  else if o = 0x10 then some { roReg with ko := msk 0 0 ||| msk 51 13 }
  else if o = 0x18 then some { roReg with ko := msk 16 0, reset := 2 }
  else if o = 0x20 then some roReg
  else if (arrIdx 0x1000 800 8 o).isSome then
    some { roReg with rw := msk 27 0, reset := field 15 10 0x10 }
  else if (arrIdx 0x4000 800 8 o).isSome then some roReg else none

/-- LAND registers (R394 to R400).  LAND_ELAPSED is written by the service port alone (R397). -/
def regLand (o : Nat) : Option RegInfo :=
  if o % 8 = 0 ∧ o ≤ 0x30 then some roReg else none

/-- PCIE registers (R456 to R458). -/
def regPcie (o : Nat) : Option RegInfo :=
  if (arrIdx 0 16 8 o).isSome ∨ (arrIdx 0x100 64 8 o).isSome then some roReg else none

/-- CH registers (R449 to R454, R406). -/
def regCh (o : Nat) : Option RegInfo :=
  if o = 0 then some { roReg with ko := msk 0 0 ||| msk 47 16, reset := field 31 16 0x1E ||| field 47 32 0x7D0 }
  else if o = 0x08 ∨ o = 0x10 ∨ o = 0x30 then some roReg
  else if o = 0x18 ∨ o = 0x20 ∨ o = 0x28 then some { roReg with rw := msk 63 0 }
  else if o = 0x38 then some { roReg with rc := msk 45 23 }
  else if o = 0x40 then some { roReg with w1c := msk 5 0 }
  else if (arrIdx 0x100 16 8 o).isSome ∨ (arrIdx 0x2000 64 8 o).isSome ∨ (arrIdx 0x4000 1023 8 o).isSome then
    some roReg
  else if (arrIdx 0x1000 128 8 o).isSome then some { roReg with ko := msk 52 0 }
  else if 0x8000 ≤ o ∧ o < 0x8000 + 64 * 0x180 then
    if (o - 0x8000) % 0x18 = 0 then some { roReg with rw := msk 2 0 ||| msk 51 12 }
    else if (o - 0x8000) % 0x18 = 8 ∨ (o - 0x8000) % 0x18 = 16 then some { roReg with rw := msk 51 12 }
    else none
  else none

/-- The registers of a VCF doorbell page (R412). -/
def regVcf (o : Nat) : Option RegInfo :=
  if (arrIdx 0 256 8 o).isSome then some roReg
  else if o = 0x808 then some { roReg with w1c := msk 2 2 }
  else if o = 0x800 ∨ o = 0x810 then some roReg
  else if o = 0x818 ∨ o = 0x820 then some { roReg with rw := msk 63 12 }
  else if o = 0x828 then some { roReg with rw := msk 6 0 ||| msk 31 8 }
  else if o = 0x830 then some { roReg with reset := 0x8 }
  else if (arrIdx 0x900 16 16 o).isSome then some { roReg with rw := msk 3 0 ||| msk 51 12 }
  else if (arrIdx 0x908 16 16 o).isSome then some { roReg with rw := msk 47 0 }
  else if (arrIdx 0xA00 8 8 o).isSome then some roReg else none

/-- CMP registers of one engine (R523 to R525). -/
def regCmp (o : Nat) : Option RegInfo :=
  if o = 0 then some roReg else if o = 8 then some { roReg with w1c := msk 2 0 }
  else if (arrIdx 0x10 4 8 o).isSome then some roReg else none

/-- CIP registers of one engine (R526 to R530). -/
def regCip (o : Nat) : Option RegInfo :=
  if o = 0 then some roReg else if o = 8 then some roReg
  else if o = 0x10 then some { roReg with rc := msk 6 5 }
  else if o = 0x18 then some { roReg with w1c := msk 4 0 }
  else if (arrIdx 0x20 4 8 o).isSome then some roReg else none

/-- FLX registers of one port; `p0` for page 0 (R489 to R495). -/
def regFlx (p0 : Bool) (o : Nat) : Option RegInfo :=
  if o = 0 then some { roReg with ko := msk 18 0 ||| msk 63 32, reset := field 47 32 0x88B5 ||| field 63 48 0x5AF0 }
  else if o = 8 then some { roReg with w1c := msk 1 0 }
  else if (arrIdx 0x100 4 0x40 o).isSome then some roReg
  else if (arrIdx 0x108 4 0x40 o).isSome then some { roReg with ko := msk 47 0 }
  else if (arrIdx 0x110 4 0x40 o).isSome then some { roReg with ko := msk 31 0 }
  else if (arrIdx 0x120 4 0x40 o).isSome ∨ (arrIdx 0x128 4 0x40 o).isSome then some { roReg with ko := msk 63 0 }
  else if ¬ p0 then none
  else if o = 0x1000 then some { roReg with ko := msk 63 0 }
  else if o = 0x1008 then some { roReg with rw := msk 0 0 ||| msk 51 18 }
  else if o = 0x1010 ∨ o = 0x1018 ∨ (arrIdx 0x1020 9 8 o).isSome then some roReg
  else if o = 0x1080 then some { roReg with w1c := msk 6 0 }
  else if (arrIdx 0x2000 256 0x20 o).isSome then some { roReg with rw := msk 8 0 ||| msk 63 12 }
  else if (arrIdx 0x2008 256 0x20 o).isSome then some { roReg with rw := msk 51 12 }
  else if (arrIdx 0x2010 256 0x20 o).isSome then some { roReg with rw := msk 63 0 }
  else if (arrIdx 0x2018 256 0x20 o).isSome then some { roReg with rw := msk 12 0 }
  else none

/-- RTU registers (R549 to R553). -/
def regRtu (o : Nat) : Option RegInfo :=
  if o = 8 then some { roReg with rw := msk 1 0 }
  else if o % 8 = 0 ∧ o ≤ 0x48 then some roReg
  else if (arrIdx 0x100 16 8 o).isSome then some roReg
  else if (arrIdx 0x1000 512 8 o).isSome then some { roReg with rw := msk 63 0 } else none

/-- CFG registers (R610 to R615). -/
def regCfg (o : Nat) : Option RegInfo :=
  if o = 0x18 ∨ o = 0x20 then some { roReg with reset := 1 }
  else if o % 8 = 0 ∧ o ≤ 0x20 then some roReg
  else if (arrIdx 0x100 64 0x20 o).isSome ∨ (arrIdx 0x108 64 0x20 o).isSome ∨ (arrIdx 0x110 64 0x20 o).isSome then
    some roReg
  else if (arrIdx 0x8000 1024 0x20 o).isSome ∨ (arrIdx 0x8008 1024 0x20 o).isSome ∨ (arrIdx 0x8010 1024 0x20 o).isSome
  then some roReg else none

/-- A fault class (R554): first source, units, allowed reactions, default reaction, threshold N, window W in ms.
Reactions: 0 LOG, 1 RETRY, 2 SPARE, 3 FENCE, 4 HOLD (R560). -/
structure FcClass where
  first : Nat
  units : Nat
  allowed : List Nat
  dflt : Nat
  n : Nat
  w : Nat
deriving DecidableEq, Repr

/-- The classes 0 to 27 of R554, in order. -/
def fcClasses : List FcClass :=
  [⟨0x000, 64, [0, 2, 3, 4], 0, 8, 60000⟩, ⟨0x040, 64, [2, 3, 4], 2, 1, 1⟩,
   ⟨0x080, 64, [0, 2, 3, 4], 0, 64, 86400000⟩, ⟨0x0C0, 64, [0], 0, 1, 1⟩,
   ⟨0x100, 64, [0, 4], 0, 1, 1⟩, ⟨0x140, 16, [0, 4], 0, 64, 86400000⟩,
   ⟨0x150, 16, [0, 4], 0, 1, 1⟩, ⟨0x160, 16, [0, 3, 4], 3, 1, 1⟩,
   ⟨0x170, 16, [3, 4], 3, 1, 1⟩, ⟨0x180, 16, [0, 3, 4], 0, 16, 60000⟩,
   ⟨0x190, 16, [0], 0, 1, 1⟩, ⟨0x1A0, 16, [3, 4], 3, 1, 1⟩,
   ⟨0x1B0, 16, [0, 4], 4, 1, 1⟩, ⟨0x1C0, 4, [4], 4, 1, 1⟩,
   ⟨0x1C4, 4, [0, 3, 4], 3, 1, 1⟩, ⟨0x1C8, 16, [0, 1, 3], 0, 1, 1⟩,
   ⟨0x1D8, 16, [0, 1, 3], 0, 1, 1⟩, ⟨0x1E8, 16, [1, 3, 4], 3, 1, 1⟩,
   ⟨0x1F8, 8, [1, 3, 4], 3, 1, 1⟩, ⟨0x200, 16, [1, 3, 4], 3, 1, 1⟩,
   ⟨0x210, 1, [0], 0, 1, 1⟩, ⟨0x211, 1, [0], 0, 1, 1⟩,
   ⟨0x212, 1, [4], 4, 1, 1⟩, ⟨0x213, 1, [0, 4], 0, 1, 1⟩,
   ⟨0x214, 1, [0, 4], 0, 1, 1⟩, ⟨0x215, 1, [4], 4, 1, 1⟩,
   ⟨0x216, 1, [0], 0, 1, 1⟩, ⟨0x400, 1024, [0, 4], 0, 1, 1⟩]

/-- The class number and class of a source (R554); `none` for a reserved source. -/
def fcClassOf (src : Nat) : Option (Nat × FcClass) :=
  ((List.range 28).zip fcClasses).find? (fun e => decide (e.2.first ≤ src ∧ src < e.2.first + e.2.units))

/-- FC_SRC_CFG with a class's defaults (R554, R579). -/
def fcCfgDefault (c : FcClass) : Word := field 2 0 c.dflt ||| field 15 8 c.n ||| field 42 16 c.w

/-- FC registers (R573 to R583).  The reset values of the class and source registers are the class's (R554). -/
def regFc (o : Nat) : Option RegInfo :=
  if o = 0 then some { roReg with w1c := msk 27 0 ||| msk 32 32 }
  else if o = 8 then some { roReg with ko := msk 37 0, reset := field 15 0 0x3E8 ||| field 23 16 8 ||| field 37 24 0x18 }
  else if o % 8 = 0 ∧ o ≤ 0x28 then some roReg
  else if 0x100 ≤ o ∧ o < 0x1E0 ∧ o % 8 = 0 then
    some { roReg with ko := msk 23 0,
                      reset := field 15 0 0x3E8 ||| field 26 24 ((fcClasses.map FcClass.dflt).getD ((o - 0x100) / 8) 0) }
  else if 0x400 ≤ o ∧ o < 0x600 ∧ o % 8 = 0 then some roReg
  else if 0x1000 ≤ o ∧ o < 0x3000 ∧ o % 8 = 0 then some roReg
  else if 0x4000 ≤ o ∧ o < 0x8000 ∧ o % 8 = 0 then
    match fcClassOf ((o - 0x4000) / 8) with
    | some (_, c) => some { roReg with ko := msk 2 0 ||| msk 42 8, reset := fcCfgDefault c }
    | none => some roReg
  else if (arrIdx 0x8000 2048 8 o).isSome then some { roReg with w1c := msk 9 8 } else none

/-- The register at an offset of the control-space window, `none` where R33 makes the access a bus error. -/
def regInfo (off : Nat) : Option RegInfo :=
  if off % 8 ≠ 0 then none
  else if off < 0x010000 then regMod off
  else if off < 0x020000 then regCfg (off - offCfg)
  else if off < 0x030000 then regFc (off - offFc)
  else if off < 0x040000 then regLand (off - offLand)
  else if off < 0x050000 then regRtu (off - offRtu)
  else if off < 0x060000 then regTally (off - offTally)
  else if off < 0x070000 then regEvt (off - offEvt)
  else if off < 0x080000 then none
  else if off < 0x100000 then regLp (off % 0x1000)
  else if off < 0x110000 then regCoh (off - offCoh)
  else if off < 0x200000 then none
  else if off < 0x300000 then regPm (off % 0x10000)
  else if off < 0x310000 then regPcie (off - offPcie)
  else if off < 0x400000 then none
  else if off < 0x410000 then regCh (off - offCh)
  else if off < 0x800000 then none
  else if off < 0xBFF000 then regVcf (off % 0x1000)
  else if off < 0xC00000 then none
  else if off < 0xC08000 then regCmp (off % 0x1000)
  else if off < 0xC10000 then none
  else if off < 0xC20000 then regCip (off % 0x1000)
  else if off < 0xD00000 then none
  else if off < 0xD40000 then regFlx (off < 0xD10000) (off % 0x10000)
  else if off < 0xE00000 then none
  else if off < 0xE10000 then regCwy (off - offCwy)
  else if off < 0xF00000 then none
  else if off < 0xF10000 then regUc (off - offUc)
  else none

/-- The Reset column of a register; offsets that name none read 0. -/
def resetReg (off : Nat) : Word := match regInfo off with | some r => r.reset | none => 0

/-- Whether a register belongs to the standby domain, whose registers a main-domain reset leaves: the collector's, and
MOD_STATUS, which reads while the main domain is off (R41, R640). -/
def isFcOff (off : Nat) : Bool := decide (off = 0x18 ∨ (offFc ≤ off ∧ off < offLand))

/-- The value a register holds. -/
def State.reg (s : State) (off : Nat) : Word :=
  if isFcOff off then s.std.fc.get off (resetReg off) else s.live.regs.get off (resetReg off)

/-- Sets the value a register holds: what hardware does. -/
def State.setReg (s : State) (off : Nat) (v : Word) : State :=
  if isFcOff off then { s with std := { s.std with fc := s.std.fc.put off v (resetReg off) } }
  else { s with live := { s.live with regs := s.live.regs.put off v (resetReg off) } }

/-- A field of a register. -/
def State.regF (s : State) (off hi lo : Nat) : Nat := bits (s.reg off) hi lo

/-- Hardware sets a field of a register. -/
def State.setRegF (s : State) (off hi lo v : Nat) : State := s.setReg off (setBits (s.reg off) hi lo v)

/-- What a software write `v` leaves in a register that holds `old` (R16, R20): RW fields take the value, KO fields
only from keel, W1C fields clear where a 1 is written, every other field stays. -/
def writeValue (r : RegInfo) (keel : Bool) (old v : Word) : Word :=
  let m := r.rw ||| (if keel then r.ko else 0)
  ((old &&& ~~~ m) ||| (v &&& m)) &&& ~~~ (v &&& r.w1c)

end Sys2Proof.Machine
end

