-- ==== Sys2Proof/Machine/Ops.lean ====
section
/-! DEFINITION. The named operations over processors, registers, events and counters that the meanings share. -/

namespace Sys2Proof.Machine

/-! ## Processors and slips -/

/-- An LP's landed state. -/
def State.lp (s : State) (n : LpId) : Lp := s.live.lps.get n

/-- Replaces an LP's landed state. -/
def State.setLp (s : State) (n : LpId) (l : Lp) : State :=
  { s with live := { s.live with lps := s.live.lps.set n.val l n.isLt } }

/-- What an LP has in flight. -/
def State.lpv (s : State) (n : LpId) : LpVol := s.vol.lps.get n

/-- Replaces what an LP has in flight. -/
def State.setLpv (s : State) (n : LpId) (v : LpVol) : State :=
  { s with vol := { s.vol with lps := s.vol.lps.set n.val v n.isLt } }

/-- A slip of an LP. -/
def State.slipN (s : State) (n : LpId) (k : Fin 8) : Slip := (s.lp n).slips.get k

/-- Replaces a slip of an LP. -/
def State.setSlipN (s : State) (n : LpId) (k : Fin 8) (x : Slip) : State :=
  s.setLp n { s.lp n with slips := (s.lp n).slips.set k.val x k.isLt }

/-- The running slip (R150), or the last one run. -/
def State.slip (s : State) (n : LpId) : Slip := s.slipN n (s.lp n).run

/-- Replaces the running slip. -/
def State.setSlip (s : State) (n : LpId) (x : Slip) : State := s.setSlipN n (s.lp n).run x

/-- A general register of the running slip (R54). -/
def State.g (s : State) (n : LpId) (r : Reg) : Word := (s.slip n).g.get r

/-- A floating register of the running slip (R55). -/
def State.f (s : State) (n : LpId) (r : Reg) : Word := (s.slip n).f.get r

/-- Adds a signature item of the instruction in progress: kind, number, words (R210). -/
def State.item (s : State) (n : LpId) (kind num : Nat) (ws : List Word) : State :=
  s.setLpv n { s.lpv n with items := (s.lpv n).items ++ [(kind, num, ws)] }

/-- Writes a general register: the value, the dirty bit of its group (R166), the signature item (R210). -/
def State.setG (s : State) (n : LpId) (r : Reg) (v : Word) : State :=
  let x := s.slip n
  (s.setSlip n { x with g := x.g.set r.val v r.isLt, dirty := x.dirty ||| (if r.val < 16 then 1 else 2) }).item
    n 0x01 r.val [v]

/-- Writes a floating register. -/
def State.setF (s : State) (n : LpId) (r : Reg) (v : Word) : State :=
  let x := s.slip n
  (s.setSlip n { x with f := x.f.set r.val v r.isLt, dirty := x.dirty ||| (if r.val < 16 then 4 else 8) }).item
    n 0x02 r.val [v]

/-- Writes a bank register, both halves in one step (R70), reserved bits 0 (R68, R69). -/
def State.setB (s : State) (n : LpId) (r : BankNo) (lo hi : Word) : State :=
  let x := s.slip n
  let b : Bank := ⟨lo &&& (msk 6 0 ||| msk 51 12), hi &&& msk 47 0⟩
  (s.setSlip n { x with b := x.b.set r.val b r.isLt, dirty := x.dirty ||| 16 }).item n 0x03 r.val [b.lo, b.hi]

/-- Writes a micro-register of the saved set (R193); group 4 becomes dirty (R166). -/
def State.setU (s : State) (n : LpId) (r : Fin 16) (v : Word) : State :=
  let x := s.slip n
  (s.setSlip n { x with u := x.u.set r.val v r.isLt, dirty := x.dirty ||| 16 }).item n 0x05 r.val [v]

/-- Sets the PC of the running slip; the PC belongs to group 4 (R91, R166). -/
def State.setPc (s : State) (n : LpId) (v : Word) : State :=
  let x := s.slip n
  s.setSlip n { x with pc := v, dirty := x.dirty ||| 16 }

/-- The register after `r` of a pair; the last register's pair wraps (an odd number names no pair, R109). -/
def Reg.succ (r : Reg) : Reg := r + 1

/-! ## The module's identity and status -/

/-- The logical processors of the part (R3). -/
def lpCountOf (part : BitVec 4) : Nat := if part = 1 then 56 else if part = 2 then 40 else 60

/-- LP_COUNT of this module (R38). -/
def State.lpCount (s : State) : Nat := lpCountOf s.pwr.part

/-- MOD_STATUS.HARBOUR (R41). -/
def State.harbour (s : State) : Bool := bit (s.reg 0x18) 7

/-- MOD_STATUS.DEBUG: 0 CLOSED, 1 KEEL-DEBUG, 2 FULL (R41). -/
def State.debug (s : State) : Nat := s.regF 0x18 6 5

/-- MOD_STATUS.POWER_STATE (R41). -/
def State.powerState (s : State) : Nat := s.regF 0x18 2 0

/-- Whether the main domain runs: RUN, or a start that has its image (R41, R587). -/
def State.mainOn (s : State) : Bool :=
  decide (s.powerState = 0 ∨ (s.powerState = 3 ∧ (s.pwr.phase = .training ∨ s.pwr.phase = .noImage)))

/-- Whether the caches and homes work: while the main domain runs, and in a landing until its lines are written back (R364). -/
def State.cohOn (s : State) : Bool := s.mainOn || decide (s.pwr.phase = .landing ∧ ¬ s.pwr.land.linesDone)

/-- Whether module `m` is in the deck (R276, R286); this module always is. -/
def State.inDeck (s : State) (m : Nat) : Bool :=
  decide (m = s.pwr.modid.val) || bit (s.reg (offCwy + 0x40)) m

/-- A plan field (R594 to R600), `d` where the plan holds none. -/
def State.planF (s : State) (tag d : Nat) : Nat := s.live.plan.get (tag * 65536) d

/-- WINDOW_LENGTH of the fault policy (R211, R599). -/
def State.windowLength (s : State) : Nat := s.planF 0x0901 256

/-! ## Who writes a register -/

/-- Whether a register access may be made where level `lvl` or a more privileged one is asked for: a processor by its
level (R20, R47), the service port only where its own rules say (R656), a probe once KEEL-DEBUG or FULL is open
(R545), a processor of another module by its level (R30). -/
def State.srcMay (s : State) (src : Src) (lvl : Nat) : Bool :=
  s.mainOn && match src with
  | .lp n => decide ((s.slip n).level.toNat ≤ lvl)
  | .service => false
  | .probe => decide (1 ≤ s.debug)
  | .remote l => decide (l.toNat ≤ lvl)

/-- Whether an access is made at keel level. -/
def State.srcKeel (s : State) (src : Src) : Bool := s.srcMay src 0

/-! ## Free values -/

/-- Counts one free value taken. -/
def State.tick1 (s : State) : State := { s with free := s.free + 1 }

/-! ## Events and reports -/

/-- Whether a source is ever raised: not those R154 marks. -/
def State.raisable (s : State) (src : Nat) : Bool :=
  decide (src < 4096 ∧ ¬ (src < 64 ∧ s.lpCount ≤ src) ∧ ¬ (134 ≤ src ∧ src < 256))

/-- Raises an event source: sets its PEND, merging with earlier raisings (R157). -/
def State.raise (s : State) (src : Nat) : State :=
  if s.raisable src then s.setRegF (offEvt + 8 * src) 1 1 1 else s

/-- Sets a bit of MOD_EVENT and raises the module-status source (R42, R154). -/
def State.modEvent (s : State) (b : Nat) : State := (s.setRegF 0x20 b b 1).raise 128

/-- A block reports an event to a source of the fault collector with a DETAIL its rule gives; FAULT_EVENT brings it there
(R557). -/
def State.reportWith (s : State) (source : Nat) (detail : BitVec 32) : State :=
  { s with std := { s.std with reports := s.std.reports ++ [(source, detail)] } }

/-- A block reports an event whose DETAIL no rule gives: a free value (log 18). -/
def State.report (s : State) (source : Nat) : State :=
  s.tick1.reportWith source ((Config.freeWord s.free).truncate 32)

/-! ## Tally counters -/

/-- One counter of a block takes an increment of its selected event (R618): 48 bits and OVF. -/
def bumpWord (w : Word) (n : Nat) : Word :=
  let v := bits w 47 0 + n
  setBits (setBits w 47 0 v) 48 48 (if 2 ^ 48 ≤ v then 1 else bits w 48 48)

/-- Whether the counter's value carries out of bit SAMPLE_LOG2 − 1 (R630). -/
def carried (old n lg : Nat) : Bool := decide (old / 2 ^ lg < (old + n) / 2 ^ lg)

/-- Counter `i` takes an increment of event `code` if that is its selected event (R616 to R619), and asks for a sample where its
value carries (R630). -/
def State.bumpOne (s : State) (i code n : Nat) : State :=
  let sel := s.reg (offTally + 0x1000 + 8 * i)
  let inc := if bit sel 8 then 1 else n
  let old := s.live.tally.get i 0
  if bits sel 7 0 = code ∧ 0 < n then
    { s with
      live := { s.live with tally := s.live.tally.put i (bumpWord old inc) 0 }
      vol := { s.vol with sampleDue := (
        if i < 512 ∧ bit sel 9 ∧ carried (bits old 47 0) inc (bits sel 15 10) then s.vol.sampleDue ++ [(i / 8, i % 8)]
        else s.vol.sampleDue) } }
  else s

/-- The counters `base` to `base + cnt − 1` take an increment (R616 to R619). -/
def State.countFrom (s : State) (base code n : Nat) : Nat → State
  | 0 => s
  | k + 1 => (s.countFrom base code n k).bumpOne (base + k) code n

/-- Counting, which a landing trigger stops (R625). -/
def State.count (s : State) (base code n k : Nat) : State :=
  if s.pwr.phase = .landing then s else s.countFrom base code n k

/-- An event of an LP (R619). -/
def State.countLp (s : State) (n : LpId) (code inc : Nat) : State := s.count (8 * n.val) code inc 8

/-- An event of a cluster (R619). -/
def State.countCl (s : State) (c code inc : Nat) : State := s.count (512 + 8 * c) code inc 8

/-- An event of a memory port (R619). -/
def State.countPm (s : State) (p code inc : Nat) : State := s.count (640 + 4 * p) code inc 4

/-- An event of a channel engine (R619). -/
def State.countCh (s : State) (e code inc : Nat) : State := s.count (704 + 4 * e) code inc 4

/-- An event of a Florix port (R619). -/
def State.countFlx (s : State) (p code inc : Nat) : State := s.count (768 + 4 * p) code inc 4

/-- An event of a causeway link (R619). -/
def State.countCwy (s : State) (l code inc : Nat) : State := s.count (784 + 4 * l) code inc 4

end Sys2Proof.Machine
end

