-- ==== Sys2Proof/Machine/Mem.lean ====
section
/-! DEFINITION. The absolute address map (R27), the ways to other modules (R274), and main memory behind the ports: lines, parked and
held writes, poison. -/

namespace Sys2Proof.Machine

/-! ## The absolute address map (R27) -/

/-- The region an absolute address lies in, with its module and the offset within the module's part. -/
inductive Region where
  | main (m : Nat) (off : Nat)
  | landing (m : Nat) (off : Nat)
  | pcie (m : Nat) (off : Nat)
  | ctl (m : Nat) (off : Nat)
  | unmapped
deriving DecidableEq, Repr

/-- The region of an absolute address (R27). -/
def regionOf (a : Nat) : Region :=
  if a < 0x800000000000 then .main (a / 0x100000000000) (a % 0x100000000000)
  else if 0xD000000000000 ≤ a ∧ a < 0xD002000000000 then
    .landing ((a - 0xD000000000000) / 0x400000000) ((a - 0xD000000000000) % 0x400000000)
  else if 0xE000000000000 ≤ a ∧ a < 0xE080000000000 then
    .pcie ((a - 0xE000000000000) / 0x10000000000) ((a - 0xE000000000000) % 0x10000000000)
  else if 0xF000000000000 ≤ a ∧ a < 0xF000800000000 then
    .ctl ((a - 0xF000000000000) / 0x100000000) ((a - 0xF000000000000) % 0x100000000)
  else .unmapped

/-- Whether a region is marked Device (R27, R74). -/
def Region.isDevice : Region → Bool
  | .pcie _ _ => true
  | .ctl _ _ => true
  | _ => false

/-- GiB in bytes. -/
def gib : Nat := 0x40000000

/-- The set that covers an offset of the module's main-memory region, lowest first (R324). -/
def findSet (sets : List MSet) (o : Nat) : Option MSet :=
  sets.find? (fun t => decide (t.base * gib ≤ o ∧ o < t.base * gib + t.ports.length * t.share * gib))

/-- The port and device address of an offset of the module's main-memory region (R324). -/
def placeOff (sets : List MSet) (o : Nat) : Option (Nat × Nat) :=
  match findSet sets o with
  | none => none
  | some t =>
    let q := o - t.base * gib
    let g := q / t.granule
    some (t.ports.getD (g % t.ports.length) 0, g / t.ports.length * t.granule + q % t.granule)

/-- A line of the deck's main memory as this module reaches it: its key in `Mem`, and its port and device address
when this module is its home (R259). -/
structure LineRef where
  key : Nat
  own : Bool
  port : Nat
  dev : Nat
deriving DecidableEq, Repr

/-- The line with number `ln` (absolute address / 256); `none` where an access is a bus error (R28, R324). -/
def State.lineRef (s : State) (ln : Nat) : Option LineRef :=
  match regionOf (ln * 256) with
  | .main m off =>
    if m = s.pwr.modid.val then
      match placeOff s.live.sets off with
      | some (p, d) => some ⟨p * 2 ^ 32 + d / 256, true, p, d / 256 * 256⟩
      | none => none
    else if s.inDeck m then some ⟨2 ^ 48 + ln, false, 0, 0⟩ else none
  | _ => none

/-! ## Ways to other modules (R274, R276) -/

/-- CWY_LINK_n (R285). -/
def offLink (l : Nat) : Nat := offCwy + 8 * l

/-- STATE of a causeway link (R285): 0 DOWN, 1 TRAINING, 2 UP, 3 FENCED, 4 REFUSED. -/
def State.linkState (s : State) (l : Nat) : Nat := s.regF (offLink l) 2 0

/-- The links that are UP. -/
def State.linksUp (s : State) : List Nat := (List.range 4).filter (fun l => decide (s.linkState l = 2))

/-- The links that are UP of the ascending way (0 and 1) or the descending one (2 and 3) over which module `m` is reached. -/
def State.wayLinks (s : State) (asc : Bool) (m : Nat) : List Nat :=
  s.linksUp.filter (fun l => decide (l < 2) == asc && (s.vol.peers.get l (0, false)).1.testBit m)

/-- The hops to module `m` in ascending MODID order round the ring of the deck's members. -/
def State.hopsUp (s : State) (m : Nat) : Nat :=
  let me := s.pwr.modid.val
  ((List.range 8).filter (fun k => s.inDeck k && decide (0 < (k + 8 - me) % 8 ∧ (k + 8 - me) % 8 ≤ (m + 8 - me) % 8))).length

/-- The links a message to module `m` may take (R274, R276): the shorter way round the ring, the ascending one on a tie; the other way
where the first has no link. -/
def State.route (s : State) (m : Nat) : List Nat :=
  let n := ((List.range 8).filter (fun k => s.inDeck k)).length
  let up := s.wayLinks true m
  let down := s.wayLinks false m
  if up = [] then down
  else if down = [] ∨ 2 * s.hopsUp m ≤ n then up
  else down

/-- A message leaves for module `m`, over either link of its way (R274), and is counted (R619). -/
def State.sendTo (s : State) (m : Nat) : State :=
  let l := s.route m
  match l[Config.freeNat s.free % l.length]? with
  | some k => s.tick1.countCwy k 0x02 1
  | none => s

/-- The module whose main memory holds a line. -/
def lineModule (ln : Nat) : Nat := ln * 256 / 0x100000000000

/-- STATE of a memory port (R349): 0 ABSENT, 1 TRAINING, 2 ADMITTED, 3 FENCED, 4 REFUSED. -/
def State.portState (s : State) (p : Nat) : Nat := s.regF (offPm p) 2 0

/-- The bytes of a line of coherent memory. -/
def State.lineBytes (s : State) (key : Nat) : List Byte := s.mem.cur.bytes (key * 256) 256

/-- The absolute line number of a device line of this module that a mapped set holds (R324); a data line beyond its set's share, or of
a port in no mapped set, has no address: 2^44, which no agent holds. -/
def absLine (sets : List MSet) (modid p dev : Nat) : Nat :=
  match sets.find? (fun t => t.ports.contains p && decide (dev < t.share * gib)) with
  | none => 2 ^ 44
  | some t =>
    let pos := (t.ports.idxOf p)
    let g := dev / t.granule * t.ports.length + pos
    (modid * 0x100000000000 + t.base * gib + g * t.granule + dev % t.granule) / 256

/-! ## Reading and writing a home's memory -/

/-- What the read of a line from memory found (R333). -/
inductive Found where
  | good
  | poisoned
  | mismatch
deriving DecidableEq, Repr

/-- The outcome of R333 for the line with key `key` at device address `dev`: 4 in place of 2 as the KIND of a line
whose only poison is the expander's (R355). -/
def foundOf (m : Mem) (key dev : Nat) : Found × Nat :=
  match m.checks.get key none with
  | none => if m.mpoison.get key false then (.poisoned, 4) else (.good, 0)
  | some w =>
    let t := tileCheck dev (m.media.bytes (key * 256) 256)
    if w = ~~~ t then (.poisoned, 2)
    else if m.mpoison.get key false then (.poisoned, 4)
    else if w = t then (.good, 0)
    else (.mismatch, 1)

/-- A port event (R354): its bit of PM_EVENT, and the report to the class that takes it (R554). -/
def State.pmEvent (s : State) (p b : Nat) : State :=
  let s := s.setRegF (offPm p + 0x28) b b 1
  if b = 0 ∨ b = 1 then s.report (0x180 + p)
  else if b = 4 then s.report (0x1B0 + p)
  else if b = 5 then s.report (0x190 + p)
  else s

/-- PM_ERR_ADDR of a port (R355). -/
def State.pmErr (s : State) (p ln kind : Nat) : State :=
  s.setReg (offPm p + 0x30) (field 51 8 ln ||| field 54 52 kind)

/-- The home reads a line of its memory and verifies its check (R332, R333): GOOD changes nothing, POISONED and
MISMATCH poison the line, record it, and a MISMATCH writes the inverted check. -/
def State.readHome (s : State) (r : LineRef) (ln : Nat) (scrub : Bool) : Found × State :=
  let s := s.countPm r.port 0x02 1
  match foundOf s.mem r.key r.dev with
  | (.good, _) => (.good, s)
  | (.poisoned, k) =>
    let s := { s with mem := { s.mem with poison := s.mem.poison.put r.key true false } }
    (.poisoned, (s.pmErr r.port ln k).pmEvent r.port 1)
  | (.mismatch, _) =>
    let t := tileCheck r.dev (s.mem.media.bytes (r.key * 256) 256)
    let s := { s with mem := { s.mem with poison := s.mem.poison.put r.key true false,
                                          checks := s.mem.checks.put r.key (some (~~~ t)) none } }
    (.mismatch, (s.pmErr r.port ln (if scrub then 3 else 1)).pmEvent r.port 0)

/-- The lines one park area takes (R342). -/
def parkMax : Nat := 65536

/-- Lines of the landing store are written whole: their write counts rise by 1, and their tags are good (R375). -/
def State.lsWritten (s : State) (lines : List Nat) : State :=
  { s with nv := { s.nv with lsCount := lines.foldl (fun m k => m.put k (m.get k 0 + 1) 0) s.nv.lsCount
                             lsBad := lines.foldl (fun m k => m.put k false false) s.nv.lsBad } }

/-- The module writes an area of the landing store itself: what its window wrote there before is gone. -/
def State.lsForget (s : State) (p : Nat → Bool) : State :=
  { s with nv := { s.nv with lsRaw := s.nv.lsRaw.filter (fun e => !p e.1) } }

/-- The module changes the configuration copies (R376): what the window wrote there before is gone. -/
def State.withCfg (s : State) (f : Cfg → Cfg) : State :=
  { s with nv := { s.nv with cfg := f s.nv.cfg } }.lsForget (fun o => decide (o < 0x4000000))

/-- Whether an offset of the landing store lies in entry `k` of a port's park area (R380). -/
def inPark (p k o : Nat) : Bool :=
  decide (0x4000000 + p * 0x100000 + 16 * k ≤ o ∧ o < 0x4000000 + p * 0x100000 + 16 * k + 16 ∨
    0x18000000 + p * 0x1000000 + 256 * k ≤ o ∧ o < 0x18000000 + p * 0x1000000 + 256 * k + 256)

/-- A write of a fenced port's line is parked, or held when the park area is full (R342, R343). -/
def State.park (s : State) (p : Nat) (w : Park) : State :=
  let l := s.nv.parks.get p []
  let s := s.countPm p 0x07 1
  if l.length < parkMax then
    let s := { s with nv := { s.nv with parks := s.nv.parks.put p (l ++ [w]) [] } }.lsForget (inPark p l.length)
    let s := s.lsWritten [0x180000 + p * 0x10000 + l.length, 0x40000 + p * 0x1000 + l.length / 16]
    s.setRegF (offPm p + 0x40) 16 0 (l.length + 1)
  else
    let s := { s with vol := { s.vol with held := s.vol.held.put p (s.vol.held.get p [] ++ [w]) [] } }
    s.pmEvent p 4

/-- What work number `i` wrote on the way from `s0` to `s` is not all acknowledged while a full park area holds some of it (R304, R343): the
ports whose held writes it added to are noted. -/
def State.noteHeld (s0 s : State) (i : Nat) : State :=
  let ps := (List.range 16).filter (fun p => decide ((s0.vol.held.get p []).length < (s.vol.held.get p []).length))
  if ps = [] then s else { s with vol := { s.vol with heldFor := s.vol.heldFor ++ ps.map (fun p => (i, p)) } }

/-- Whether the homes have accepted everything work number `i` wrote (R304). -/
def State.accepted (s : State) (i : Nat) : Bool := !s.vol.heldFor.any (fun e => decide (e.1 = i))

/-- A line of data and its poison reach the expander with the check the home computes (R332, R334); the check waits
in the check cache, the expander keeping the old one until it is written back (R337). -/
def State.mediaWrite (s : State) (key dev : Nat) (data : List Byte) (poison : Bool) : State :=
  let t := tileCheck dev data
  let old : Option (BitVec 32) :=
    some (match s.mem.checks.get key none with
          | some w => w
          | none => tileCheck dev (s.mem.media.bytes (key * 256) 256))
  let m := s.mem
  { s with mem := { m with
      media := m.media.setBytes (key * 256) data
      mpoison := m.mpoison.put key poison false
      checks := m.checks.put key (if poison then some (~~~ t) else none) none
      ckOld := if (m.ckOld.get key none).isSome then m.ckOld else m.ckOld.put key old none
      ckAge := if (m.ckOld.get key none).isSome then m.ckAge else m.ckAge.put key s.vol.caches.epoch 0 } }

/-- The home writes the coherent value of a line to memory: to the expander when its port is admitted, else parked
(R332, R342).  A line of another module goes to its home. -/
def State.writeHome (s : State) (r : LineRef) (scratch : Bool) : State :=
  if ¬ r.own then s.sendTo (lineModule (r.key - 2 ^ 48))
  else
    let data := s.lineBytes r.key
    let poison := s.mem.poison.get r.key false
    if s.portState r.port = 2 then (s.countPm r.port 0x03 1).mediaWrite r.key r.dev data poison
    else
      let t := tileCheck r.dev data
      s.park r.port ⟨r.dev / 256, data, if poison then ~~~ t else t, scratch, poison⟩

end Sys2Proof.Machine
end

