-- ==== Sys2Proof/Machine/Cache.lean ====
section
/-! DEFINITION. The caches of the module (R237 to R249): what they hold, replacement, locked ways, and the accesses that go through
them, each performed whole. -/

namespace Sys2Proof.Machine

/-! ## Copies -/

/-- Replaces the coherence state. -/
def State.withCaches (s : State) (f : Caches → Caches) : State := { s with vol := { s.vol with caches := f s.vol.caches } }

/-- An agent's copy of a line (R254, R260). -/
def State.cline (s : State) (agent ln : Nat) : CLine := s.vol.caches.dir.get (ln * 128 + agent) CLine.none

/-- The L1I (`id` the twin) and L1D (`id` 64 + the twin) lines that a filter keeps. -/
def dropL1 (t ln : Nat) (l : Map (Option (Nat × BitVec 4))) : Map (Option (Nat × BitVec 4)) :=
  l.filter (fun e => !(decide (e.1 / 512 % 64 = t) && (match e.2 with | some (x, _) => decide (x = ln) | none => true)))

/-- Sets an agent's copy of a line; a line that leaves an L2 leaves the twin's L1s, which it includes (R237). -/
def State.setCline (s : State) (agent ln : Nat) (c : CLine) : State :=
  let x := s.vol.caches
  let d := x.dir.put (ln * 128 + agent) (if c.st = .i ∧ ¬ c.wbk then CLine.none else c) CLine.none
  { s with vol := { s.vol with caches := { x with
      dir := d, l1 := if agent < 64 ∧ c.st = .i then dropL1 agent ln x.l1 else x.l1 } } }

/-- The agents of this module that hold a line, with their copies. -/
def State.holders (s : State) (ln : Nat) : List (Nat × CLine) :=
  s.vol.caches.dir.filterMap (fun e => if e.1 / 128 = ln then some (e.1 % 128, e.2) else none)

/-- A copy that is dirty relative to memory (R254). -/
def CSt.dirty : CSt → Bool
  | .o => true
  | .m => true
  | _ => false

/-- A copy that supplies data (R254, R256). -/
def CSt.supplies : CSt → Bool
  | .i => false
  | .s => false
  | _ => true

/-- The new state and the response of an agent to a snoop (R256). -/
def snoopTable : CSt → Snoop → CSt × Resp
  | .i, _ => (.i, .miss)
  | .s, .shared => (.s, .hit)
  | .s, .own => (.i, .hit)
  | .s, .cur => (.s, .hit)
  | .s, .inv => (.i, .hit)
  | .s, .invf => (.i, .hit)
  | .s, .clean => (.s, .hit)
  | .e, .shared => (.s, .dataClean)
  | .e, .own => (.i, .dataClean)
  | .e, .cur => (.e, .dataClean)
  | .e, .inv => (.i, .hit)
  | .e, .invf => (.i, .hit)
  | .e, .clean => (.e, .hit)
  | .o, .shared => (.o, .dataDirty)
  | .o, .own => (.i, .dataDirty)
  | .o, .cur => (.o, .dataDirty)
  | .o, .inv => (.i, .dataDirty)
  | .o, .invf => (.i, .hit)
  | .o, .clean => (.s, .dataDirty)
  | .m, .shared => (.o, .dataDirty)
  | .m, .own => (.i, .dataDirty)
  | .m, .cur => (.m, .dataDirty)
  | .m, .inv => (.i, .dataDirty)
  | .m, .invf => (.i, .hit)
  | .m, .clean => (.e, .dataDirty)

/-! ## Open transactions -/

/-- Whether the line has an open transaction at its home (R259), or a completion on its way to its requester. -/
def State.txnOpen (s : State) (ln : Nat) : Bool :=
  s.vol.caches.txns.any (fun t => decide (t.req.line = ln)) ||
    s.vol.caches.grants.any (fun g => decide (g.req.line = ln) && !g.retry)

/-- The open transaction of a line. -/
def State.txnOf (s : State) (ln : Nat) : Option Txn := s.vol.caches.txns.find? (fun t => decide (t.req.line = ln))

/-- Replaces the open transaction of a line. -/
def State.setTxn (s : State) (t : Txn) : State :=
  s.withCaches (fun c => { c with txns := c.txns.map (fun u => if u.req.line = t.req.line then t else u) })

/-- A line of which this module is the home (R259). -/
def State.ownLine (s : State) (ln : Nat) : Option LineRef :=
  match s.lineRef ln with
  | some r => if r.own then some r else none
  | none => none

/-- A line moves from agent `a` to agent `b` within the module while its home waits for `a`'s answer: `b` is to be snooped, whatever
it answered before the line came (R262). -/
def State.moveSnoop (s : State) (a b ln : Nat) : State :=
  match s.txnOf ln with
  | none => s
  | some t =>
    if ¬ t.wait.contains a then s
    else (s.withCaches (fun c => { c with resps := c.resps.filter (fun e => !decide (e.1 = b ∧ e.2.1 = ln)) })).setTxn
      { t with wait := if t.wait.contains b then t.wait else t.wait ++ [b] }

/-! ## Sets, ways and replacement (R237, R239, R242, R663) -/

/-- The set of a line in an L2 or an L3 slice (R663). -/
def cacheSet (agent ln : Nat) : Nat := if agent < 64 then ln % 1024 else ln % 16384

/-- The set of a line in an L1I or L1D (R663). -/
def l1Set (ln : Nat) : Nat := ln % 64

/-- COH_L2_n or COH_L3_n of an agent (R279). -/
def cohReg (agent : Nat) : Nat := if agent < 64 then offCoh + 0x100 + 8 * agent else offCoh + 0x400 + 8 * (agent - 64)

/-- Whether an L2 or L3 slice is enabled (R247). -/
def State.cacheOn (s : State) (agent : Nat) : Bool := bit (s.reg (cohReg agent)) (if agent < 64 then 2 else 0)

/-- LOCK_WAYS of a cache (R242). -/
def State.lockWays (s : State) (agent : Nat) : Nat := bits (s.reg (cohReg agent)) 6 4

/-- The locked way that holds a line's lock tag in a cache (R243). -/
def State.tagWay (s : State) (agent ln : Nat) : Option Nat :=
  (s.live.lockTags.find? (fun e => decide (e.1 = agent ∧ e.2.1 = ln))).map (·.2.2)

/-- Whether a line has a lock tag in a cache (R243). -/
def State.locked (s : State) (agent ln : Nat) : Bool := (s.tagWay agent ln).isSome

/-- A replacement tree of 2^k ways is a mask over its inner nodes, the root node 1, the children of node n 2n and 2n + 1; a node's bit
names the half that was not used last. -/
def plruTouch (k tree way : Nat) : Nat :=
  (List.range k).foldl (fun t i =>
    let node := (2 ^ k + way) / 2 ^ (i + 1)
    let right : Bool := (2 ^ k + way) / 2 ^ i % 2 == 1
    if t.testBit node == right then t ^^^ 2 ^ node else t) tree

/-- The way a tree chooses below a node, of those `ok` takes (R239): the half its bit names where that holds one of them. -/
def plruDown (tree : Nat) (ok : Nat → Bool) : Nat → Nat → Nat
  | 0, node => node
  | k + 1, node =>
    let b := b2n (tree.testBit node)
    let has (n : Nat) : Bool := (List.range (2 ^ k)).any (fun i => ok (n * 2 ^ k + i))
    plruDown tree ok k (if has (2 * node + b) then 2 * node + b else 2 * node + 1 - b)

/-- The way a tree of 2^k ways chooses among those `ok` takes. -/
def plruPick (k tree : Nat) (ok : Nat → Bool) : Nat := plruDown tree (fun n => ok (n - 2 ^ k)) k 1 - 2 ^ k

/-- The replacement tree of a set: `id` is the agent for an L2 or L3 slice, 80 + twin an L1I, 144 + twin an L1D, 208 + port a manifest. -/
def State.tree (s : State) (id set : Nat) : Nat := s.vol.caches.plru.get (id * 2 ^ 18 + set) 0

/-- A way of a set of 2^k ways has been used. -/
def State.useWay (s : State) (id k set way : Nat) : State :=
  s.withCaches (fun c => { c with plru := c.plru.put (id * 2 ^ 18 + set) (plruTouch k (s.tree id set) way) 0 })

/-- The lines a cache holds in a line's set, with their ways. -/
def State.setLines (s : State) (agent ln : Nat) : List (Nat × Nat) :=
  s.vol.caches.dir.filterMap (fun e =>
    if e.1 % 128 = agent ∧ e.2.st ≠ .i ∧ cacheSet agent (e.1 / 128) = cacheSet agent ln then some (e.1 / 128, e.2.way) else none)

/-- The way a line of a cache takes (R239, R243, R244): its lock tag's, else the lowest-numbered free way outside the locked ones. -/
def State.wayFor (s : State) (agent ln : Nat) : Nat :=
  match s.tagWay agent ln with
  | some w => w
  | none =>
    let used := (s.setLines agent ln).map (·.2)
    ((List.range (16 - s.lockWays agent)).find? (fun w => !used.contains w)).getD 0

/-- The line an allocation replaces when every way open to it is taken (R239). -/
def State.victim (s : State) (agent ln : Nat) : Option Nat :=
  let l := s.setLines agent ln
  let k := 16 - s.lockWays agent
  if (List.range k).all (fun w => l.any (fun e => decide (e.2 = w))) then
    let w := plruPick 4 (s.tree agent (cacheSet agent ln)) (fun w => decide (w < k))
    (l.find? (fun e => decide (e.2 = w))).map (·.1)
  else none

/-- A copy of a line is used. -/
def State.touchWay (s : State) (agent ln : Nat) : State :=
  s.useWay agent 4 (cacheSet agent ln) (s.cline agent ln).way

/-- A cache takes a copy of a line, into the way it holds the line in or the way it takes, for which room has been made. -/
def State.place (s : State) (agent ln : Nat) (c : CLine) : State :=
  let old := s.cline agent ln
  let w := if old.st = .i then s.wayFor agent ln else old.way
  (s.setCline agent ln { c with way := w }).touchWay agent ln

/-! ## The L1s (R237, R247) -/

/-- The key of an L1's way: `id` the twin for its L1I, 64 + the twin for its L1D. -/
def l1Key (id set way : Nat) : Nat := (id * 64 + set) * 8 + way

/-- The way of an L1 that holds a line, with its valid sectors. -/
def State.l1Find (s : State) (id ln : Nat) : Option (Nat × BitVec 4) :=
  (List.range 8).findSome? (fun w =>
    match s.vol.caches.l1.get (l1Key id (l1Set ln) w) none with
    | some (x, v) => if x = ln then some (w, v) else none
    | none => none)

/-- Whether an L1 is enabled (R281). -/
def State.l1On (s : State) (id : Nat) : Bool := bit (s.reg (cohReg (id % 64))) (id / 64)

/-- Whether an access to sectors of a line misses in an L1. -/
def State.l1Miss (s : State) (id ln : Nat) (sec : BitVec 4) : Bool :=
  match s.l1Find id ln with
  | some (_, v) => decide (v &&& sec ≠ sec)
  | none => true

/-- An L1 has been accessed: it takes the sectors where it is enabled and the L2 holds them (R237, R247). -/
def State.l1Use (s : State) (id ln : Nat) (sec : BitVec 4) : State :=
  let c := s.cline (id % 64) ln
  let put (w : Nat) (v : BitVec 4) : State :=
    (s.withCaches (fun x => { x with l1 := x.l1.put (l1Key id (l1Set ln) w) (some (ln, v)) none })).useWay (80 + id) 3 (l1Set ln) w
  if c.st = .i ∨ c.valid &&& sec ≠ sec then s
  else match s.l1Find id ln with
  | some (w, v) => put w (if s.l1On id then v ||| sec else v)
  | none =>
    if ¬ s.l1On id then s
    else match (List.range 8).find? (fun w => decide (s.vol.caches.l1.get (l1Key id (l1Set ln) w) none = none)) with
    | some w => put w sec
    | none => put (plruPick 3 (s.tree (80 + id) (l1Set ln)) (fun _ => true)) sec

/-! ## Reservations -/

/-- LPs bound to twin `t`. -/
def State.lpsOf (s : State) (t : Nat) : List LpId :=
  (List.finRange 64).filter (fun n => decide ((s.lp n).twin.val = t))

/-- The LPs of a twin lose a reservation on a line (R315). -/
def State.loseResv (s : State) (n : LpId) (ln : Nat) : State :=
  if (s.lpv n).resv = some ln then s.setLpv n { s.lpv n with resv := none } else s

/-- Every LP but those of agent `self` loses its reservation on a line: another agent's ownership or invalidating
request for it (R315). -/
def State.loseResvOthers (s : State) (self ln : Nat) : State :=
  (List.finRange 64).foldl (fun s n => if (s.lp n).twin.val = self then s else s.loseResv n ln) s

/-! ## Snoops (R256, R257, R267) -/

/-- One agent of this module takes a snoop (R256): its new state; a copy that goes loses the twin's reservation
(R273). -/
def State.snoopOne (s : State) (k : Snoop) (agent ln : Nat) : State :=
  let c := s.cline agent ln
  let s := s.countCl (if agent < 64 then agent / 4 else agent - 64) 0x05 1
  let (st, _) := snoopTable c.st k
  let s := s.setCline agent ln { c with st := st, valid := if st = .i then 0 else c.valid,
                                        moored := c.moored && decide (st ≠ .i) }
  if st = .i then (s.lpsOf agent).foldl (fun s n => s.loseResv n ln) s else s

/-- Every agent of this module that holds the line, `self` apart, takes a snoop. -/
def State.snoopAll (s : State) (k : Snoop) (self ln : Nat) : State :=
  ((s.holders ln).filter (fun e => decide (e.1 ≠ self))).foldl (fun s e => s.snoopOne k e.1 ln) s

/-- An agent answers a snoop of its own home's transaction (R256, R257): WB_PENDING while its WBK is not acknowledged, the
table otherwise; an RdOZ is answered HIT without data. -/
def State.answer (s : State) (k : Snoop) (agent ln : Nat) : State :=
  let c := s.cline agent ln
  if c.wbk then s.withCaches (fun x => { x with resps := x.resps ++ [(agent, ln, .wbPending)] })
  else
    let (_, resp) := snoopTable c.st k
    let s := match s.txnOf ln with
      | some t => if c.st.dirty then s.setTxn { t with scratch := c.scratch, epoch := c.epoch } else s
      | none => s
    let zero : Bool := match s.txnOf ln with
      | some t => decide (t.req.kind = .rdoz)
      | none => false
    let resp := if zero ∧ resp ≠ .miss then .hit else resp
    (s.snoopOne k agent ln).withCaches (fun x => { x with resps := x.resps ++ [(agent, ln, resp)] })

/-- A snoop takes effect at an agent: its home hears the answer; of one from another module's home only the agent's new state
stays here. -/
def State.takeSnoop (s : State) (k : Snoop) (agent ln : Nat) : State :=
  if (s.ownLine ln).isSome then s.answer k agent ln
  else if (s.cline agent ln).wbk then s else s.snoopOne k agent ln

/-- A line's mooring ends at an agent and the snoop it held takes effect (R267). -/
def State.endMooring (s : State) (agent ln : Nat) : State :=
  let c := s.cline agent ln
  if ¬ c.moored then s
  else
    let s := s.setCline agent ln { c with moored := false }
    match s.vol.caches.heldSnoops.find? (fun e => decide (e.1 = agent ∧ e.2.1 = ln)) with
    | none => s
    | some (_, _, k) =>
      (s.withCaches (fun x => { x with heldSnoops := x.heldSnoops.filter (fun e => !decide (e.1 = agent ∧ e.2.1 = ln)) })).takeSnoop
        k agent ln

/-- Every mooring ends, at a landing freeze or HOLD (R267). -/
def State.endMoorings (s : State) : State :=
  (s.vol.caches.dir.filter (fun e => e.2.moored)).foldl (fun s e => s.endMooring (e.1 % 128) (e.1 / 128)) s

/-! ## Evictions (R239) -/

/-- A dirty line leaves the caches by a writeback to its home (R239); that of a module out of the deck fails, is logged, and drops
the line (R277). -/
def State.evictHome (s : State) (agent ln : Nat) : State :=
  let c := s.cline agent ln
  let s := s.setCline agent ln CLine.none
  match s.lineRef ln with
  | some r => if c.st.dirty then s.writeHome r c.scratch else s
  | none => if c.st.dirty then s.report 0x150 else s

/-- Makes room in an L3 slice (R239). -/
def State.makeRoomL3 (s : State) (agent ln : Nat) : State :=
  match s.victim agent ln with
  | none => s
  | some v => (if (s.cline agent v).st.dirty then s.countCl (agent - 64) 0x04 1 else s).evictHome agent v

/-- A line leaves an L2 (R239): into its cluster's L3 slice when that is enabled (clean lines by L3_CLEAN_ALLOC), else
home; reservations on it are lost (R315). -/
def State.evictL2 (s : State) (t ln : Nat) : State :=
  let c := s.cline t ln
  let l3 := 64 + t / 4
  let s := (s.lpsOf t).foldl (fun s n => s.loseResv n ln) s
  if s.cacheOn l3 ∧ (c.st.dirty ∨ bit (s.reg offCoh) 12) then
    let s := (s.setCline t ln CLine.none).moveSnoop t l3 ln
    if (s.cline l3 ln).st ≠ .i then
      if c.st.dirty then s.place l3 ln { c with moored := false, wbk := false } else s.touchWay l3 ln
    else (s.makeRoomL3 l3 ln).place l3 ln { c with moored := false, wbk := false }
  else s.evictHome t ln

/-- Makes room for a line in the cache of an agent that does not hold it. -/
def State.makeRoom (s : State) (agent ln : Nat) : State :=
  if (s.cline agent ln).st ≠ .i ∨ s.locked agent ln then s
  else if agent < 64 then
    match s.victim agent ln with
    | none => s
    | some v => s.evictL2 agent v
  else s.makeRoomL3 agent ln

/-- Whether an L2's allocation of a line would evict a line that an LP of the twin has reserved (R241). -/
def State.evictsResv (s : State) (t ln : Nat) : Bool :=
  (s.cline t ln).st = .i && !s.locked t ln &&
    (match s.victim t ln with
     | none => false
     | some v => (s.lpsOf t).any (fun n => decide ((s.lpv n).resv = some v)))

/-- All four sectors. -/
def allSectors : BitVec 4 := 15

/-- The sectors of a line that a piece touches (R238). -/
def sectorsOf (off n : Nat) : BitVec 4 :=
  BitVec.ofNat 4 (((List.range 4).map (fun i => if i * 64 < off + n ∧ off < i * 64 + 64 then 2 ^ i else 0)).sum)

/-- A twin that hits in its own cluster's L3 slice moves the line into its L2 (R239): a dirty line leaves the slice, a clean one is kept
in both, shared (log 45). -/
def State.promote (s : State) (t ln : Nat) : State :=
  let l3 := 64 + t / 4
  let x := s.cline l3 ln
  let c := s.cline t ln
  if x.st = .i ∨ ¬ s.cacheOn t ∨ s.txnOpen ln ∨ c.st ≠ .i then s
  else
    let s := (s.touchWay l3 ln).makeRoom t ln
    if x.st.dirty then (s.place t ln { x with valid := allSectors, moored := false }).setCline l3 ln CLine.none
    else (s.place t ln { x with st := .s, moored := false }).place l3 ln { x with st := .s }

/-- A read fills the way of a lock tag of the reader's L3 slice that holds no data (R244, R245, R272). -/
def State.refillL3 (s : State) (t ln : Nat) : State :=
  let l3 := 64 + t / 4
  let c := s.cline t ln
  if ¬ s.locked l3 ln ∨ ¬ s.cacheOn l3 ∨ (s.cline l3 ln).st ≠ .i ∨ c.st = .i ∨ c.st.dirty then s
  else (s.place l3 ln { c with st := .s, moored := false }).setCline t ln { c with st := .s }

/-! ## The manifest (R264 to R266) -/

/-- The manifest set of a line (R264). -/
def manSet (ln : Nat) : Nat := ln % 131072

/-- Whether a line's manifest set is in error (R266). -/
def State.manError (s : State) (ln port : Nat) : Bool := s.vol.caches.manBad.contains (port, manSet ln)

/-- What the manifest says of a line; every module of the deck while its set is in error, possibly dirty (R266). -/
def State.man (s : State) (ln port : Nat) : Man :=
  if s.manError ln port then
    ⟨BitVec.ofNat 8 (s.regF (offCwy + 0x40) 7 0) &&& ~~~ BitVec.ofNat 8 (2 ^ s.pwr.modid.val), true, 0, 0⟩
  else s.vol.caches.manifest.get ln Man.none

/-- Sets the manifest entry of a line; an entry that names no module is freed (R264), a set in error keeps none (R266). -/
def State.setMan (s : State) (ln : Nat) (e : Man) : State :=
  let bad : Bool := match s.ownLine ln with
    | some r => s.manError ln r.port
    | none => false
  if bad then s
  else s.withCaches (fun c => { c with manifest := c.manifest.put ln (if e.holders = 0 then Man.none else e) Man.none })

/-- The line's data as a module holding it dirty would return them: free bytes. -/
def State.freeLine (s : State) (key : Nat) : State :=
  let s1 := { s with mem := { s.mem with
    cur := s.mem.cur.setBytes (key * 256) ((List.range 256).map (Config.freeByte s.free)) } }
  s1.tick1

/-- Whether some agent of this module holds a copy of the line. -/
def State.heldHere (s : State) (ln : Nat) : Bool := (s.holders ln).any (fun h => decide (h.2.st ≠ .i))

/-- Whether another module may answer a snoop for the line with data (R264, R266). -/
def State.remoteMay (s : State) (r : LineRef) (ln : Nat) : Bool :=
  let e := s.man ln r.port
  r.own && e.dirty && decide (e.holders ≠ 0)

/-- The modules the manifest names answer a snoop for data, at once: whether one of them holds the line in E, O or M is not known
here, so the answer is free; its data are free bytes unless a copy here shows them. -/
def State.askRemote (s : State) (r : LineRef) (ln : Nat) : Bool × State :=
  let may := s.remoteMay r ln
  let named := if r.own then (s.man ln r.port).holders else 0
  let s := ((List.range 8).filter (fun m => named.getLsbD m)).foldl State.sendTo s
  if ¬ may then (false, s)
  else if Config.freeBool s.free then (true, if s.heldHere ln then s.tick1 else s.freeLine r.key)
  else (false, s.tick1)

/-- What the snoops to the modules the manifest names leave in it (R264): an invalidating one clears the entry, a clean takes DIRTY. -/
def State.snoopRemote (s : State) (k : Snoop) (r : LineRef) (ln : Nat) : State :=
  let e := s.man ln r.port
  if ¬ r.own ∨ e.holders = 0 then s
  else match k with
  | .own => s.setMan ln Man.none
  | .inv => s.setMan ln Man.none
  | .invf => s.setMan ln Man.none
  | .clean => s.setMan ln { e with dirty := false }
  | _ => s

/-! ## Requests of this module's agents, each performed whole -/

/-- The result of an access to a line. -/
inductive Acc (α : Type) where
  | ok (a : α) (s : State)
  | bus (s : State)
  | wait
deriving Repr

/-- Whether a cache of the deck can supply the line's data (R256, R262). -/
def State.cacheSupplies (s : State) (r : LineRef) (ln : Nat) : Bool :=
  (s.holders ln).any (fun e => e.2.st.supplies) || s.remoteMay r ln

/-- Data for a request that no cache supplies come from the home's memory: a bus error while its port is not admitted
(R341), the outcome of R333 otherwise.  A line homed elsewhere that no cache here holds has data the model does not
know. -/
def State.fetchLine (s : State) (r : LineRef) (ln : Nat) : Acc Found :=
  if ¬ r.own then
    let s := s.sendTo (lineModule ln)
    if s.heldHere ln then .ok .good s else .ok .good (s.freeLine r.key)
  else if (s.holders ln).any (fun e => e.2.st.supplies) then .ok .good s
  else
    let (d, s) := s.askRemote r ln
    if d then .ok .good s
    else if s.portState r.port ≠ 2 then .bus s
    else let (f, s) := s.readHome r ln false; .ok f s

/-- Whether the coherent copy of the line is poisoned. -/
def State.linePoison (s : State) (r : LineRef) : Bool := s.mem.poison.get r.key false

/-- A shared read of sectors by agent `a` (RdS, R238, R255, R262): a line it does not hold becomes E there when no other copy exists in
the deck, otherwise S. -/
def State.obtainShared (s : State) (a ln : Nat) (sec : BitVec 4) : Acc Found :=
  match s.lineRef ln with
  | none => .bus s
  | some r =>
    if s.txnOpen ln then .wait
    else match s.fetchLine r ln with
      | .bus s => .bus s
      | .wait => .wait
      | .ok f s =>
        let others := (s.holders ln).any (fun e => decide (e.1 ≠ a ∧ e.2.st ≠ CSt.i)) ||
          (!r.own) || decide ((s.man ln r.port).holders ≠ 0)
        let s := ((s.snoopRemote .shared r ln).snoopAll .shared a ln).makeRoom a ln
        let c := s.cline a ln
        .ok f (s.place a ln { c with st := if c.st = .i then (if others then .s else .e) else c.st,
                                     valid := c.valid ||| sec })

/-- Ownership by agent `a` (RdO or Upg, R238, R239, R255, R258): every other copy goes, the line is M there with all its
sectors; a clean line becomes dirty in the current epoch (R329). -/
def State.obtainOwned (s : State) (a ln : Nat) : Acc Found :=
  match s.lineRef ln with
  | none => .bus s
  | some r =>
    let s := if a < 64 then s.promote a ln else s
    let c := s.cline a ln
    if (c.st = .m ∨ c.st = .e) ∧ c.valid = allSectors then
      .ok .good (s.place a ln { c with st := .m, epoch := if c.st = .m then c.epoch else s.vol.caches.epoch })
    else if s.txnOpen ln then .wait
    else match (if c.st = .i ∨ c.valid ≠ allSectors then s.fetchLine r ln else .ok .good s) with
      | .bus s => .bus s
      | .wait => .wait
      | .ok f s =>
        let moved := ((s.holders ln).filter (fun e => decide (e.1 ≠ a) && e.2.st.dirty)).head?
        let s := (((s.snoopRemote .own r ln).snoopAll .own a ln).loseResvOthers a ln).makeRoom a ln
        let c := s.cline a ln
        let c : CLine := match moved with
          | some (_, d) => { c with scratch := d.scratch, epoch := d.epoch }
          | none => if c.st.dirty then c else { c with epoch := s.vol.caches.epoch }
        .ok f (s.place a ln { c with st := .m, valid := allSectors })

/-- Ownership without data (RdOZ, R255): the requester zeroes the line, which is good again (R334). -/
def State.obtainZero (s : State) (a ln : Nat) : Acc Unit :=
  match s.lineRef ln with
  | none => .bus s
  | some r =>
    let c := s.cline a ln
    if c.st ≠ .m ∧ c.st ≠ .e ∧ s.txnOpen ln then .wait
    else
      let s := (((s.snoopRemote .own r ln).snoopAll .own a ln).loseResvOthers a ln).makeRoom a ln
      let m := { s.mem with cur := s.mem.cur.setBytes (r.key * 256) (List.replicate 256 0),
                            poison := s.mem.poison.put r.key false false }
      let d := s.cline a ln
      .ok () ({ s with mem := m }.place a ln { d with
        st := .m, valid := allSectors, epoch := if c.st.dirty then c.epoch else s.vol.caches.epoch })

/-- A read-current by an agent without a cache (RdCur, R268): no state changes anywhere.  Answers the bytes and
whether the line is poisoned. -/
def State.readCur (s : State) (ln off n : Nat) : Acc (List Byte × Found) :=
  match s.lineRef ln with
  | none => .bus s
  | some r =>
    if s.txnOpen ln then .wait
    else match s.fetchLine r ln with
      | .bus s => .bus s
      | .wait => .wait
      | .ok f s =>
        let f := if f = .good ∧ s.linePoison r then .poisoned else f
        .ok (s.mem.cur.bytes (r.key * 256 + off) n, f) s

/-- A full-line write by an agent without a cache (WrInvF, R268): every copy goes, dirty data are discarded, the line
is written with its check and is good (R334). -/
def State.writeFull (s : State) (self ln : Nat) (data : List Byte) (poison scratch : Bool) : Acc Unit :=
  match s.lineRef ln with
  | none => .bus s
  | some r =>
    if s.txnOpen ln then .wait
    else
      let s := ((s.snoopRemote .invf r ln).snoopAll .invf self ln).loseResvOthers self ln
      let m := { s.mem with cur := s.mem.cur.setBytes (r.key * 256) data,
                            poison := s.mem.poison.put r.key poison false }
      .ok () ({ s with mem := m }.writeHome r scratch)

/-- A partial write by an agent without a cache (WrInvP, R268): the home merges the bytes into the returned or stored
line and writes the line; a poisoned line stays poisoned (R334); a bus error while the port is fenced (R341). -/
def State.writePartial (s : State) (self ln off : Nat) (data : List Byte) : Acc Unit :=
  match s.lineRef ln with
  | none => .bus s
  | some r =>
    if s.txnOpen ln then .wait
    else if r.own ∧ s.portState r.port ≠ 2 then .bus s
    else match s.fetchLine r ln with
      | .bus s => .bus s
      | .wait => .wait
      | .ok _ s =>
        let s := ((s.snoopRemote .inv r ln).snoopAll .inv self ln).loseResvOthers self ln
        let m := { s.mem with cur := s.mem.cur.setBytes (r.key * 256 + off) data }
        .ok () ({ s with mem := m }.writeHome r false)

/-! ## Accesses of agents without caches, over lines -/

/-- The pieces of a range, one per line, in ascending order: line, offset, length (R77, R268). -/
def linePieces : Nat → Nat → Nat → List (Nat × Nat × Nat)
  | 0, _, _ => []
  | fuel + 1, a, n =>
    if n = 0 then []
    else
      let k := min n (256 - a % 256)
      (a / 256, a % 256, k) :: linePieces fuel (a + k) (n - k)

/-- The pieces of `n` bytes at `a`. -/
def piecesOf (a n : Nat) : List (Nat × Nat × Nat) := linePieces (n / 256 + 2) a n

/-- Reads pieces as an agent without a cache: the bytes, and the worst outcome found. -/
def readPieces (s : State) : List (Nat × Nat × Nat) → Acc (List Byte × Found)
  | [] => .ok ([], .good) s
  | (ln, off, n) :: r =>
    match s.readCur ln off n with
    | .bus s => .bus s
    | .wait => .wait
    | .ok (d, f) s =>
      match readPieces s r with
      | .bus s => .bus s
      | .wait => .wait
      | .ok (d', f') s => .ok (d ++ d', if f = .good then f' else f) s

/-- Reads `n` bytes at absolute address `a` as an agent without a cache (R268). -/
def State.readAbs (s : State) (a n : Nat) : Acc (List Byte × Found) := readPieces s (piecesOf a n)

/-- Writes pieces as an agent without a cache, one request per line in ascending order (R268). -/
def writePieces (self : Nat) (s : State) (scratch : Bool) : List (Nat × Nat × Nat) → List Byte → Acc Unit
  | [], _ => .ok () s
  | (ln, off, n) :: r, data =>
    match (if n = 256 then s.writeFull self ln (data.take 256) false scratch
           else s.writePartial self ln off (data.take n)) with
    | .bus s => .bus s
    | .wait => .wait
    | .ok _ s => writePieces self s scratch r (data.drop n)

/-- Writes bytes at absolute address `a` as agent `self` without a cache (R268). -/
def State.writeAbs (s : State) (self a : Nat) (data : List Byte) : Acc Unit :=
  writePieces self s false (piecesOf a data.length) data

/-- Whether every byte of a range lies in memory of the deck that the module can reach (R28). -/
def State.reachable (s : State) (a n : Nat) : Bool := (piecesOf a n).all (fun p => (s.lineRef p.1).isSome)

end Sys2Proof.Machine
end

