-- ==== Sys2Proof/Machine/Store.lean ====
section
/-! DEFINITION. The landing store as its window shows it (R29, R373): which area an offset lies in, and how the records the spec
lays out there read and are written. -/

namespace Sys2Proof.Machine

/-- The areas of R373: configuration copies, park index and data of a port with the byte's offset, the journal, the carried
strays, a landing slot, what reads as zeros, the line trailers. -/
inductive LsArea where
  | config
  | parkIdx (p : Nat) (o : Nat)
  | parkData (p : Nat) (o : Nat)
  | journal (o : Nat)
  | carried
  | slot (b : Bool) (o : Nat)
  | reserved
  | trailer
deriving DecidableEq, Repr

/-- The area of an offset (R373, R380). -/
def lsArea (o : Nat) : LsArea :=
  if o < 0x4000000 then .config
  else if o < 0x5000000 then .parkIdx ((o - 0x4000000) / 0x100000) ((o - 0x4000000) % 0x100000)
  else if o < 0x8000000 then .reserved
  else if o < 0x18000000 then .journal (o - 0x8000000)
  else if o < 0x28000000 then .parkData ((o - 0x18000000) / 0x1000000) ((o - 0x18000000) % 0x1000000)
  else if o < 0x88000000 then .carried
  else if o < 0xC0000000 then .reserved
  else if o < 0x100000000 then .trailer
  else if o < 0x280000000 then .slot false (o - 0x100000000)
  else .slot true (o - 0x280000000)

/-- Whether an area is landing slot `b`. -/
def LsArea.inSlot (b : Bool) : LsArea → Bool
  | .slot c _ => c == b
  | _ => false

/-- Byte `i` of a number, little-endian. -/
def byteOf (v i : Nat) : Byte := BitVec.ofNat 8 (v / 256 ^ i)

/-- A number with its byte `i` replaced. -/
def putByte (v i : Nat) (b : Byte) : Nat := v - v / 256 ^ i % 256 * 256 ^ i + b.toNat * 256 ^ i

/-- Bits `hi`:`lo` of a number. -/
def nbits (v hi lo : Nat) : Nat := (v >>> lo) % 2 ^ (hi + 1 - lo)

/-! ## Journal entries (R432) -/

/-- An entry as a number, byte 0 lowest. -/
def Jent.encode (j : Jent) : Nat :=
  j.st % 16 + b2n j.phase * 2 ^ 4 + b2n j.reexec * 2 ^ 5 + j.vcf % 1024 * 2 ^ 8 + j.qp % 256 * 2 ^ 18 + j.sqSlot % 65536 * 2 ^ 32 +
    j.cqSlot % 65536 * 2 ^ 48 + j.seq % 2 ^ 64 * 2 ^ 64 + j.done % 2 ^ 32 * 2 ^ 128 + j.sgl % 65536 * 2 ^ 160 +
    j.status % 256 * 2 ^ 192 + j.detail % 2 ^ 32 * 2 ^ 208 + j.crc.toNat * 2 ^ 256 + j.out % 2 ^ 32 * 2 ^ 288 +
    j.ts.toNat * 2 ^ 320 + j.tb.toNat * 2 ^ 384

/-- The entry a number holds. -/
def Jent.decode (v : Nat) : Jent :=
  { st := nbits v 3 0, phase := v.testBit 4, reexec := v.testBit 5, vcf := nbits v 17 8, qp := nbits v 25 18,
    sqSlot := nbits v 47 32, cqSlot := nbits v 63 48, seq := nbits v 127 64, done := nbits v 159 128, sgl := nbits v 175 160,
    status := nbits v 199 192, detail := nbits v 239 208, crc := BitVec.ofNat 32 (nbits v 287 256), out := nbits v 319 288,
    ts := BitVec.ofNat 64 (nbits v 383 320), tb := BitVec.ofNat 64 (nbits v 447 384) }

/-! ## Park entries (R380) -/

/-- The index entry of a parked line. -/
def Park.index (w : Park) : Nat := b2n w.scratch + w.dev % 2 ^ 40 * 2 ^ 8 + w.check.toNat * 2 ^ 64

/-- A parked line whose index entry is a number. -/
def Park.withIndex (w : Park) (v : Nat) : Park :=
  { w with scratch := v.testBit 0, dev := nbits v 47 8, check := BitVec.ofNat 32 (nbits v 95 64) }

/-! ## Strays (R379) and landing slots (R377, R378) -/

/-- The index entry of a stray of a landing slot. -/
def Stray.index (x : Stray) : Nat := b2n x.poison + x.line % 2 ^ 44 * 2 ^ 8 + x.check.toNat * 2 ^ 64

/-- A stray whose index entry is a number. -/
def Stray.withIndex (x : Stray) (v : Nat) : Stray :=
  { x with poison := v.testBit 0, line := nbits v 51 8, check := BitVec.ofNat 32 (nbits v 95 64) }

/-- STATE as a number (R378). -/
def SlotSt.code : SlotSt → Nat
  | .empty => 0
  | .opened => 1
  | .sealed => 2
  | .consumed => 3

/-- STATE of a number; the spec states no meaning of others, which leave it. -/
def SlotSt.ofCode (old : SlotSt) (n : Nat) : SlotSt :=
  if n = 0 then .empty else if n = 1 then .opened else if n = 2 then .sealed else if n = 3 then .consumed else old

/-- Where the stray index of a slot begins (R377). -/
def strayIdxOff : Nat := 0x4500000
/-- Where the stray data of a slot begin (R377). -/
def strayDataOff : Nat := 0xC500000

/-- The numbered fields of a slot's state line and record body: (offset, bytes, value) (R378). -/
def Slot.fields (x : Slot) : List (Nat × Nat × Nat) :=
  [(0, 8, x.seq.toNat), (8, 8, x.st.code), (0x20, 8, b2n x.pwrgoodLow), (0x28, 0xD8, 0), (0x100, 8, x.cause.toNat),
   (0x108, 8, x.tbTrigger.toNat), (0x110, 8, x.tbFrozen.toNat), (0x118, 8, x.tbSeal.toNat), (0x120, 64, leNat x.digest),
   (0x160, 8, x.epoch), (0x168, 8, x.ident.toNat), (0x170, 8, x.deck.toNat),
   (0x178, 8, x.strays.length + (x.strays.filter (·.poison)).length * 2 ^ 32),
   (0x1C0, 64, ((List.range 16).map (fun p => (x.dsc.get p 0).toNat * 2 ^ (32 * p))).sum), (0x200, 0xE00, 0)]

/-- A slot with one of its fields replaced, those its other contents fix excepted. -/
def Slot.setField (x : Slot) (off v : Nat) : Slot :=
  if off = 0 then { x with seq := BitVec.ofNat 64 v }
  else if off = 8 then { x with st := SlotSt.ofCode x.st v }
  else if off = 0x20 then { x with pwrgoodLow := v.testBit 0 }
  else if off = 0x100 then { x with cause := BitVec.ofNat 64 v }
  else if off = 0x108 then { x with tbTrigger := BitVec.ofNat 64 v }
  else if off = 0x110 then { x with tbFrozen := BitVec.ofNat 64 v }
  else if off = 0x118 then { x with tbSeal := BitVec.ofNat 64 v }
  else if off = 0x120 then { x with digest := toBytes v 64 }
  else if off = 0x160 then { x with epoch := v }
  else if off = 0x168 then { x with ident := BitVec.ofNat 64 v }
  else if off = 0x170 then { x with deck := BitVec.ofNat 64 v }
  else if off = 0x1C0 then
    { x with dsc := (List.range 16).foldl (fun m p => m.put p (BitVec.ofNat 32 (nbits v (32 * p + 31) (32 * p))) 0) x.dsc }
  else x

/-- The field a byte of a slot lies in. -/
def Slot.fieldAt (x : Slot) (o : Nat) : Option (Nat × Nat × Nat) :=
  x.fields.find? (fun f => decide (f.1 ≤ o ∧ o < f.1 + f.2.1))

/-- The LP map of an image: the twin of an LP of the part, and VALID (R378). -/
def Slot.lpMap (x : Slot) (im : Live) (n : Fin 64) : Byte :=
  let p := bits x.ident 11 8
  if n.val < (if p = 1 then 56 else if p = 2 then 40 else 60) then BitVec.ofNat 8 ((im.lps.get n).twin.val + 0x80) else 0

/-- A byte of a slot that its record gives; `none` where the spec lays out no byte or the model keeps none. -/
def Slot.byteAt (x : Slot) (o : Nat) : Option Byte :=
  if o < 0x1000 then
    match x.fieldAt o with
    | some (a, _, v) => some (byteOf v (o - a))
    | none =>
      match x.image with
      | some im => if 0x180 ≤ o ∧ o < 0x1C0 then some (x.lpMap im (Fin.ofNat 64 (o - 0x180))) else none
      | none => none
  else if o < strayIdxOff then none
  else if o < strayDataOff then (x.strays[(o - strayIdxOff) / 16]?).map (fun y => byteOf y.index ((o - strayIdxOff) % 16))
  else (x.strays[(o - strayDataOff) / 256]?).map (fun y => y.data.getD ((o - strayDataOff) % 256) 0)

/-- A slot with a byte its record gives replaced. -/
def Slot.putByteAt (x : Slot) (o : Nat) (b : Byte) : Slot :=
  if o < 0x1000 then
    match x.fieldAt o with
    | some (a, _, v) => x.setField a (putByte v (o - a) b)
    | none => x
  else if o < strayDataOff then
    let i := (o - strayIdxOff) / 16
    match x.strays[i]? with
    | some y => { x with strays := x.strays.set i (y.withIndex (putByte y.index ((o - strayIdxOff) % 16) b)) }
    | none => x
  else
    let i := (o - strayDataOff) / 256
    match x.strays[i]? with
    | some y => { x with strays := x.strays.set i { y with data := listSet y.data ((o - strayDataOff) % 256) b } }
    | none => x

/-! ## Bytes of the window -/

/-- A byte that a record of the model gives (R373); `none` where the store holds a byte the model does not know. -/
def State.lsKnown (s : State) (off : Nat) : Option Byte :=
  match lsArea off with
  | .reserved => some 0
  | .parkIdx p o => ((s.nv.parks.get p [])[o / 16]?).map (fun w => byteOf w.index (o % 16))
  | .parkData p o => ((s.nv.parks.get p [])[o / 256]?).map (fun w => w.data.getD (o % 256) 0)
  | .journal o => some (byteOf (s.nv.journal.get (o / 64) Jent.free).encode (o % 64))
  | .slot b o => (if b then s.nv.slotB else s.nv.slotA).byteAt o
  | _ => none

/-- A byte of the landing store (R29): what the window wrote there where no record holds it; else what the records give; else a free
value (log 17). -/
def State.lsByte (s : State) (off : Nat) : Byte :=
  match s.nv.lsRaw.get off none with
  | some b => b
  | none => (s.lsKnown off).getD (Config.freeByte s.free off)

/-- A list of parked lines with one replaced. -/
def State.setPark (s : State) (p k : Nat) (f : Park → Park) : State :=
  let l := s.nv.parks.get p []
  match l[k]? with
  | some w => { s with nv := { s.nv with parks := s.nv.parks.put p (l.set k (f w)) [] } }
  | none => s

/-- A byte written through the window where a record gives it. -/
def State.lsPutKnown (s : State) (off : Nat) (b : Byte) : State :=
  match lsArea off with
  | .parkIdx p o => s.setPark p (o / 16) (fun w => w.withIndex (putByte w.index (o % 16) b))
  | .parkData p o => s.setPark p (o / 256) (fun w => { w with data := listSet w.data (o % 256) b })
  | .journal o =>
    let j := Jent.decode (putByte (s.nv.journal.get (o / 64) Jent.free).encode (o % 64) b)
    { s with nv := { s.nv with journal := s.nv.journal.put (o / 64) j Jent.free } }
  | .slot false o => { s with nv := { s.nv with slotA := s.nv.slotA.putByteAt o b } }
  | .slot true o => { s with nv := { s.nv with slotB := s.nv.slotB.putByteAt o b } }
  | _ => s

/-- A byte written through the window (R29): into the record that gives it; where no record holds the byte as written it is kept beside
them.  Reserved areas ignore it (R373). -/
def State.lsPut (s : State) (off : Nat) (b : Byte) : State :=
  if lsArea off = .reserved then s
  else
    let s := s.lsPutKnown off b
    let keep : Option Byte := if s.lsKnown off = some b then none else some b
    { s with nv := { s.nv with lsRaw := s.nv.lsRaw.put off keep none } }

/-- Bytes written through the window in ascending order. -/
def State.lsWrite (s : State) (off : Nat) : List Byte → State
  | [] => s
  | b :: r => (s.lsPut off b).lsWrite (off + 1) r

/-- A line whose tag fails reads as poisoned (R375): the first such piece of a list of absolute addresses in a window. -/
def State.lsPoison (s : State) (l : List (Nat × Nat)) : Option Nat :=
  (l.find? (fun p => s.nv.lsBad.get ((p.1 - 0xD000000000000) % 0x400000000 / 256) false)).map (·.1)

/-- A store through the window (R29, R375), line by line: less than a line is a read-modify-write, which leaves a line whose tag fails
poisoned (log 56). -/
def State.lsStore (s : State) (off : Nat) (data : List Byte) : State :=
  ((piecesOf off data.length).foldl (fun (x : State × List Byte) p =>
    let (s, d) := x
    let bad := s.nv.lsBad.get p.1 false && decide (p.2.2 < 256)
    let s := (s.lsWrite (p.1 * 256 + p.2.1) (d.take p.2.2)).lsWritten [p.1]
    (if bad then { s with nv := { s.nv with lsBad := s.nv.lsBad.put p.1 true false } } else s, d.drop p.2.2)) (s, data)).1

end Sys2Proof.Machine
end

