-- ==== Sys2Proof/Machine/Access.lean ====
section
/-! DEFINITION. The accesses of a processor: forming and checking them (R72 to R80), loads (R287, R289), prefetches (R241), and the
stores that leave the gangway store buffer (R215, R216). -/

namespace Sys2Proof.Machine

/-! ## Forming and checking an access -/

/-- The access kinds of R72, as FINFO.KIND numbers them (R95). -/
inductive AKind where
  | read
  | write
  | exec
  | rmw
deriving DecidableEq, Repr

/-- FINFO.KIND (R95). -/
def AKind.code : AKind → Nat
  | .read => 0
  | .write => 1
  | .exec => 2
  | .rmw => 3

/-- FINFO.SIZE (R95): log2 of the size, 2 for a fetch, 7 for any other length. -/
def sizeCode (k : AKind) (n : Nat) : Nat :=
  if k = .exec then 2
  else if n = 1 then 0 else if n = 2 then 1 else if n = 4 then 2 else if n = 8 then 3 else if n = 16 then 4 else 7

/-- FINFO (R95). -/
def finfoOf (bank : Nat) (k : AKind) (size n reason ext : Nat) (piece : Bool) : Word :=
  field 3 0 bank ||| field 6 4 size ||| field 9 8 k.code ||| field 15 12 reason ||| field 19 16 ext |||
    field 20 20 (b2n piece) ||| field 63 52 (n - 1)

/-- An exception of the instruction in progress: saved PC the instruction itself. -/
def excOf (cls sub : Nat) (faddr finfo : Word) : Exc :=
  { cls := BitVec.ofNat 8 cls, sub := BitVec.ofNat 16 sub, faddr := faddr, finfo := finfo, iword := 0,
    target := none, sync := true, pc := 0 }

/-- ILLEGAL (R94). -/
def excIllegal : Exc := excOf 0x01 0 0 0
/-- PRIVILEGED (R94). -/
def excPrivileged : Exc := excOf 0x02 0 0 0

/-- BUS_PRECISE at an absolute address (R95, R141). -/
def excBus (a : Nat) (finfo : Word) : Exc := excOf 0x06 0 (BitVec.ofNat 64 a) finfo

/-- MACHINE_CHECK POISON or TILE at an absolute address (R143); FINFO is 0 (R95). -/
def excPoison (tile : Bool) (a : Nat) : Exc := excOf 0x09 (if tile then 2 else 1) (BitVec.ofNat 64 a) 0

/-- BANK_LO.VALID (R68). -/
def Bank.valid (b : Bank) : Bool := bit b.lo 0
/-- BANK_LO.DUR (R68). -/
def Bank.dur (b : Bank) : Bool := bit b.lo 4
/-- BANK_LO.DEV (R68). -/
def Bank.dev (b : Bank) : Bool := bit b.lo 5
/-- BANK_LO.EA (R68). -/
def Bank.ea (b : Bank) : Bool := bit b.lo 6
/-- The base as an address (R68). -/
def Bank.base (b : Bank) : Nat := bits b.lo 51 12 * 4096
/-- The limit (R69). -/
def Bank.limit (b : Bank) : Nat := bits b.hi 47 0

/-- Whether the bank grants what the kind needs (R72). -/
def Bank.grants (b : Bank) : AKind → Bool
  | .read => bit b.lo 1
  | .write => bit b.lo 2
  | .exec => bit b.lo 3
  | .rmw => bit b.lo 1 && bit b.lo 2

/-- The bank check of R72: the zone address, or the reason of R73. -/
def bankForm (b : Bank) (o n : Nat) (k : AKind) : Except Nat Nat :=
  if ¬ b.valid then .error 1
  else if ¬ b.grants k then .error 2
  else if k = .exec ∧ b.dev then .error 3
  else if b.limit < o ∨ b.limit < (o + n - 1) % 2 ^ 64 then .error 4
  else if 2 ^ 52 ≤ b.base + o + n - 1 then .error 4
  else .ok (b.base + o)

/-- The bytes an extent covers, from ZSTART (R76). -/
def Ext.covers (x : Ext) (z : Nat) : Bool :=
  bit x.zone 0 && decide (bits x.zone 51 12 * 4096 ≤ z ∧ z < bits x.zone 51 12 * 4096 + bits x.size 51 12 * 4096 ∧ z < 2 ^ 52)

/-- The lowest-numbered extent that covers a zone address (R77). -/
def findExt (zx : Vector Ext 16) (z : Nat) : Option (Fin 16) :=
  (List.finRange 16).find? (fun i => (zx.get i).covers z)

/-- Whether an address lies in a region that S and P may not reach (R78 FORBIDDEN). -/
def forbidden (a : Nat) : Bool :=
  match regionOf a with
  | .landing _ _ => true
  | .ctl _ off => !decide (0x800000 ≤ off ∧ off < 0xBFF000)
  | _ => false

/-- Translation of one piece (R77, R78): the absolute address, or the reason and the extent. -/
def translate1 (zx : Vector Ext 16) (z n : Nat) (k : AKind) : Except (Nat × Nat) Nat :=
  match findExt zx z with
  | none => .error (1, 0)
  | some i =>
    let x := zx.get i
    let a := bits x.abs 51 12 * 4096 + (z - bits x.zone 51 12 * 4096)
    if bit x.zone 1 ∧ (k = .write ∨ k = .rmw) then .error (2, i.val)
    else if bit x.zone 2 ∧ k = .exec then .error (3, i.val)
    else if 2 ^ 52 < a + n then .error (4, i.val)
    else if forbidden a then .error (5, 0)
    else .ok a

/-- Translation of the pieces of a range, lowest first; the first that fails is reported (R77): its zone address,
reason, extent and whether it is not the first. -/
def translatePieces (zx : Vector Ext 16) (k : AKind) (first : Bool) :
    List (Nat × Nat × Nat) → Except (Nat × Nat × Nat × Bool) (List (Nat × Nat))
  | [] => .ok []
  | (ln, off, n) :: r =>
    match translate1 zx (ln * 256 + off) n k with
    | .error (re, ex) => .error (ln * 256 + off, re, ex, !first)
    | .ok a =>
      match translatePieces zx k false r with
      | .error e => .error e
      | .ok l => .ok ((a, n) :: l)

/-- ZONE_CHECK (R95): taken to H (R79). -/
def excZone (bank : Nat) (k : AKind) (size n z reason ext : Nat) (piece : Bool) : Exc :=
  { excOf 0x05 0 (BitVec.ofNat 64 z) (finfoOf bank k size n reason ext piece) with target := some 1 }

/-- Forms and checks an access of `n` bytes through bank `b` at offset `o` at the slip's level (R72, R77): the
absolute pieces, one per line. -/
def State.formAccess (s : State) (lp : LpId) (b : BankNo) (o : Word) (n : Nat) (k : AKind) (size : Nat) :
    Except Exc (List (Nat × Nat)) :=
  let sl := s.slip lp
  match bankForm (sl.b.get b) o.toNat n k with
  | .error re => .error (excOf 0x04 0 o (finfoOf b.val k size n re 0 false))
  | .ok z =>
    if sl.level.toNat ≤ 1 then .ok ((piecesOf z n).map (fun p => (p.1 * 256 + p.2.1, p.2.2)))
    else match translatePieces (s.lp lp).zx k true (piecesOf z n) with
      | .error (za, re, ex, pc) => .error (excZone b.val k size n za re ex pc)
      | .ok l => .ok l

/-- How an absolute piece is accessed (R28, R29, R74). -/
inductive Path where
  | cached
  | device
  | window
  | bus
deriving DecidableEq, Repr

/-- The path of a piece through a bank with attribute DEV `dev`, at level `lvl` (R28, R29, R74); the line trailers of the landing
store answer with a bus error (R373), and so does the landing store of another module (log 46). -/
def State.pathOf (s : State) (dev : Bool) (lvl : BitVec 2) (a : Nat) : Path :=
  if dev ∨ (regionOf a).isDevice then .device
  else match regionOf a with
  | .landing m off =>
    if lvl = 0 ∧ s.harbour ∧ m = s.pwr.modid.val ∧ lsArea off ≠ .trailer then .window else .bus
  | .main _ _ => .cached
  | _ => .bus

/-! ## Loads -/

/-- COH_L2_n of a twin: L2_EN (R281). -/
def State.l2On (s : State) (t : Nat) : Bool := s.cacheOn t

/-- Whether a twin's read misses in its L2 (R238, R619). -/
def State.l2Miss (s : State) (t ln off n : Nat) : Bool :=
  decide ((s.cline t ln).st = .i ∨ (s.cline t ln).valid &&& sectorsOf off n ≠ sectorsOf off n)

/-- What a read of a line finds where its copy is good but for its poison (R240). -/
def State.foundHere (s : State) (ln : Nat) (f : Found) : Found :=
  match s.lineRef ln with
  | some r => if f = .good ∧ s.linePoison r then .poisoned else f
  | none => f

/-- A twin's read of a line below its L1s (R238, R239, R247): a hit in its L2, a line of its cluster's L3 slice, or a shared read;
with the L2 not enabled a miss goes on as an access of an agent without a cache.  The access performed ends a mooring (R267). -/
def State.cacheRead (s : State) (t ln off n : Nat) : Acc Found :=
  let sec := sectorsOf off n
  let l3 := 64 + t / 4
  let done (a : Nat) (f : Found) (s : State) : Acc Found := .ok (s.foundHere ln f) (s.endMooring a ln)
  if ¬ s.l2Miss t ln off n then done t .good (s.touchWay t ln)
  else
    let x := s.cline l3 ln
    if x.st ≠ .i ∧ x.valid &&& sec = sec ∧ (s.cline t ln).st = .i then
      if s.l2On t ∧ s.txnOpen ln then .wait
      else done l3 .good ((s.countCl (t / 4) 0x02 1).touchWay l3 ln |>.promote t ln)
    else
      let s := s.countCl (t / 4) 0x03 1
      if s.l2On t then
        match s.obtainShared t ln sec with
        | .ok f s => done t f (s.refillL3 t ln)
        | .bus s => .bus s
        | .wait => .wait
      else match s.readCur ln off n with
        | .ok (_, f) s => .ok f s
        | .bus s => .bus s
        | .wait => .wait

/-- A twin's read of a line through its L1I or L1D (R207, R237): `id` is the twin for the L1I, 64 + the twin for the L1D. -/
def State.readLine (s : State) (id ln off n : Nat) : Acc Found :=
  let sec := sectorsOf off n
  if ¬ s.l1Miss id ln sec then .ok (s.foundHere ln .good) ((s.l1Use id ln sec).endMooring (id % 64) ln)
  else match s.cacheRead (id % 64) ln off n with
  | .ok f s => .ok f (s.l1Use id ln sec)
  | .bus s => .bus s
  | .wait => .wait

/-- The value of an absolute byte as every agent of the deck reads it; 0 where no memory is mapped. -/
def State.byteAt (s : State) (a : Nat) : Byte :=
  match s.lineRef (a / 256) with
  | some r => s.mem.cur.byte (r.key * 256 + a % 256)
  | none => 0

/-- The gangway stores of an LP, oldest first (R215, R216). -/
def LpVol.gangway (v : LpVol) : List GStore :=
  v.releasing ++ ((v.closed.map Win.stores).getD []) ++ ((v.win.map Win.stores).getD [])

/-- The byte an LP's own stores give an address, the youngest winning (R289). -/
def forward (stores : List GStore) (a : Nat) (d : Byte) : Byte :=
  stores.foldl (fun d st => if st.addr ≤ a ∧ a < st.addr + st.bytes.length then st.bytes.getD (a - st.addr) d else d) d

/-- The bytes an LP reads at an absolute address (R289). -/
def State.lpBytes (s : State) (lp : LpId) (a n : Nat) : List Byte :=
  let st := (s.lpv lp).gangway
  (List.range n).map (fun i => forward st (a + i) (s.byteAt (a + i)))

/-- How an instruction's part ends other than by a value: an exception, a wait that leaves the command without effect,
a task that waits (R165), or a lock-up by a failing TSB read (R140, R146). -/
inductive Trap where
  | exc (e : Exc)
  | stall
  | wait
  | lock (addr : Nat)
deriving Repr

/-- An instruction's part: it acts on the state and may end in an exception. -/
abbrev Act (α : Type) := EStateM Trap State α

/-- Ends in an exception. -/
def raiseExc {α : Type} (e : Exc) : Act α := throw (.exc e)

/-- A checked result, or its exception. -/
def liftExc {α : Type} : Except Exc α → Act α
  | .ok a => pure a
  | .error e => raiseExc e

/-- FINFO of the rest of an access: PIECE is 1 in a later line (R95). -/
def laterPiece (finfo : Word) : List (Nat × Nat) → Word
  | [] => finfo
  | (a, _) :: _ => if a % 256 = 0 then finfo ||| field 20 20 1 else finfo

/-- Counts the misses of a piece in the L1 (`fetch`: the L1I) and the L2 (R619). -/
def State.countMisses (s : State) (lp : LpId) (fetch : Bool) (ln off n : Nat) : State :=
  let t := (s.lp lp).twin.val
  let id := if fetch then t else 64 + t
  if ¬ s.l1Miss id ln (sectorsOf off n) then s
  else
    let miss := s.l2Miss t ln off n
    let s := s.countLp lp (if fetch then 0x05 else 0x06) 1
    if miss then s.countLp lp 0x07 1 else s

/-- An item enters a queue of `n` entries: lane A waits until lane B has taken the oldest where it is full (R206, R207). -/
def laneQueue {α : Type} (n : Nat) (q : List α) (x : α) : List α := (if q.length < n then q else q.drop 1) ++ [x]

/-- Lane A passes an item of a kind of R207 to lane B through the 96-entry load-value queue. -/
def State.laneItem (s : State) (lp : LpId) (kind : Nat) (d : List Byte) : State :=
  let v := s.lpv lp
  s.setLpv lp { v with win := v.win.map (fun w => { w with lvq := laneQueue 96 w.lvq (kind, d) }) }

/-- Lane A passes a 32-B fetch block to lane B through the fetch-forward buffer of 128 blocks (R207). -/
def State.laneFetch (s : State) (lp : LpId) (a : Nat) : State :=
  let v := s.lpv lp
  s.setLpv lp { v with win := v.win.map (fun w =>
    { w with ffb := if w.ffb.getLast? = some (a / 32) then w.ffb else laneQueue 128 w.ffb (a / 32) }) }

/-- The data lane A read at an address pass to lane B: fetch blocks, or LOAD items of up to one 64-B sector (R207). -/
def State.laneRead (s : State) (lp : LpId) (fetch : Bool) (a : Nat) (d : List Byte) : State :=
  if fetch then s.laneFetch lp a
  else
    let k := min d.length (64 - a % 64)
    (List.range ((d.length - k + 63) / 64)).foldl (fun s i => s.laneItem lp 1 ((d.drop (k + 64 * i)).take 64)) (s.laneItem lp 1 (d.take k))

/-- Reads pieces of cacheable memory for an LP, through its L1I (`fetch`) or L1D: BUS_PRECISE and MACHINE_CHECK as R143, R333. -/
def readCached (lp : LpId) (fetch : Bool) (finfo : Word) : List (Nat × Nat) → Act (List Byte)
  | [] => pure []
  | (a, n) :: r => do
    let s0 ← get
    let s := s0.countMisses lp fetch (a / 256) (a % 256) n
    let t := (s.lp lp).twin.val
    match s.readLine (if fetch then t else 64 + t) (a / 256) (a % 256) n with
    | .wait => throw .stall
    | .bus s => do set (s.laneItem lp 5 []); raiseExc (excBus a finfo)
    | .ok f s =>
      match f with
      | .poisoned => do set (s.laneItem lp 5 []); raiseExc (excPoison false a)
      | .mismatch => do set (s.laneItem lp 5 []); raiseExc (excPoison true a)
      | .good => do
        let d := s.lpBytes lp a n
        set (s.laneRead lp fetch a d)
        let rest ← readCached lp fetch (laterPiece finfo r) r
        pure (d ++ rest)

/-- The first piece of a list that has a property, with the FINFO an exception of it carries (R95). -/
def firstPiece (bad : Nat → Bool) (finfo : Word) : List (Nat × Nat) → Option (Nat × Word)
  | [] => none
  | (a, _) :: r => if bad a then some (a, finfo) else firstPiece bad (laterPiece finfo r) r

/-- The first piece that is neither cacheable memory nor a permitted window. -/
def State.firstBad (s : State) (dev : Bool) (lvl : BitVec 2) (finfo : Word) (l : List (Nat × Nat)) : Option (Nat × Word) :=
  firstPiece (fun a => decide (s.pathOf dev lvl a = .bus ∨ s.pathOf dev lvl a = .device)) finfo l

/-- The first piece of a formed range that is a device access (R74). -/
def State.firstDevice (s : State) (dev : Bool) (lvl : BitVec 2) (finfo : Word) (l : List (Nat × Nat)) : Option (Nat × Word) :=
  firstPiece (fun a => decide (s.pathOf dev lvl a = .device)) finfo l

/-- The offsets in a formed range at which its pieces miss in the LP's L2. -/
def State.missesOf (s : State) (lp : LpId) : Nat → List (Nat × Nat) → List Nat
  | _, [] => []
  | i, (a, n) :: r =>
    let t := (s.lp lp).twin.val
    let rest := s.missesOf lp (i + n) r
    if s.l1Miss (64 + t) (a / 256) (sectorsOf (a % 256) n) && s.l2Miss t (a / 256) (a % 256) n then i :: rest else rest

/-! ## Stride prefetch (R241) -/

/-- A line is brought into an L2 (R241, R250, R253): shared, or owned by an RdO. -/
def State.touch (s : State) (t ln : Nat) (own : Bool) (off n : Nat) : State :=
  if ¬ s.l2On t ∨ s.txnOpen ln then s
  else match (if own then s.obtainOwned t ln else s.cacheRead t ln off n) with
  | .ok _ s => s
  | .bus s => s
  | .wait => s

/-- A miss of a stream at zone address `z` trains its detector (R241): the detectors, the most recently trained first, and
the stride once three misses are separated by it. -/
def trainDetector (l : List Detector) (slip : Fin 8) (bank : BankNo) (z : Nat) : List Detector × Option Int :=
  match l.find? (fun d => decide (d.slip = slip ∧ d.bank = bank)) with
  | none => ((if l.length < 16 then l else l.dropLast) ++ [⟨slip, bank, z, 0, 1⟩], none)
  | some d =>
    let st : Int := (z : Int) - d.last
    let rest := l.filter (fun e => decide (¬ (e.slip = slip ∧ e.bank = bank)))
    let put (e : Detector) := l.map (fun x => if x.slip = slip ∧ x.bank = bank then e else x)
    if 64 ≤ st.natAbs ∧ st.natAbs ≤ 2048 then
      if 2 ≤ d.seen ∧ st = d.stride then (⟨slip, bank, z, st, d.seen + 1⟩ :: rest, some st)
      else (put ⟨slip, bank, z, st, 2⟩, none)
    else (put ⟨slip, bank, z, 0, 1⟩, none)

/-- One prefetch of a stream at offset `o`: it is checked like a load of its bank and dropped where it fails, or where its
allocation would end a reservation of the twin (R241). -/
def State.prefetchAt (s : State) (lp : LpId) (bank : BankNo) (o : Word) : State :=
  match s.formAccess lp bank o 1 .read 0 with
  | .error _ => s
  | .ok l =>
    let a := (l.headD (0, 0)).1
    let t := (s.lp lp).twin.val
    if s.pathOf ((s.slip lp).b.get bank).dev (s.slip lp).level a ≠ .cached ∨ s.evictsResv t (a / 256) then s
    else s.touch t (a / 256) false (a % 256) 1

/-- A miss of a stream at offset `o` (R241): its detector is trained, and a trained one requests PF_DEPTH + 1 sectors ahead within
the 4 KiB of the zone address. -/
def State.strideMiss (s : State) (lp : LpId) (bank : BankNo) (o : Word) : State :=
  let z := ((s.slip lp).b.get bank).base + o.toNat
  let (ds, st) := trainDetector (s.lpv lp).detectors (s.lp lp).run bank z
  let s := s.setLpv lp { s.lpv lp with detectors := ds }
  match st with
  | none => s
  | some d =>
    (List.range (s.regF offCoh 11 9 + 1)).foldl (fun (s : State) (i : Nat) =>
      let z' : Int := (z : Int) + d * ((i : Int) + 1)
      if z' / 4096 = (z : Int) / 4096 then s.prefetchAt lp bank (o + BitVec.ofInt 64 (d * ((i : Int) + 1))) else s) s

/-- The misses of an access through a bank at offset `o` train the stride detectors while COH_CTL.PF_ENABLE is 1 (R241, R280). -/
def State.trainMisses (s : State) (lp : LpId) (bank : BankNo) (o : Word) (misses : List Nat) : State :=
  if bit (s.reg offCoh) 8 then misses.foldl (fun s i => s.strideMiss lp bank (o + BitVec.ofNat 64 i)) s else s

/-! ## Loads in an instruction -/

/-- Reads a formed range at offset `o` of a bank that is no device access: cacheable memory or a landing-store window. -/
def readFormed (lp : LpId) (bank : BankNo) (o : Word) (finfo : Word) (l : List (Nat × Nat)) : Act (List Byte) := do
  let s ← get
  let sl := s.slip lp
  match s.firstBad (sl.b.get bank).dev sl.level finfo l with
  | some (a, fi) => raiseExc (excBus a fi)
  | none =>
    match l with
    | (a, _) :: _ =>
      if s.pathOf (sl.b.get bank).dev sl.level a = .window then
        let st := (s.lpv lp).gangway
        match s.lsPoison l with
        | some a => raiseExc (excPoison false a)
        | none => pure ((l.map (fun p => (List.range p.2).map (fun i =>
          forward st (p.1 + i) (s.lsByte ((p.1 - 0xD000000000000) % 0x400000000 + i))))).flatten)
      else do
        let misses := s.missesOf lp 0 l
        let d ← readCached lp false finfo l
        modify (fun s => s.trainMisses lp bank o misses)
        pure d
    | [] => pure []

/-- A load of `n` bytes that is no device access, formed, checked and read. -/
def loadBytes (lp : LpId) (bank : BankNo) (o : Word) (n : Nat) (k : AKind) (size : Nat) : Act (List Byte) := do
  let s ← get
  let l ← liftExc (s.formAccess lp bank o n k size)
  readFormed lp bank o (finfoOf bank.val k size n 0 0 false) l

/-! ## Stores -/

/-- A deferred bus error is recorded against an LP under its report level, with the FINFO of the first (R95, R144). -/
def State.defer (s : State) (lp : LpId) (level : BitVec 2) (a : Nat) (finfo : Word) : State :=
  let rl : BitVec 2 := if level.toNat ≥ 2 then 2 else level
  let l := (s.lp lp).deferred
  let l' := if l.any (fun d => decide (d.level = rl)) then
      l.map (fun d => if d.level = rl then { d with count := d.count + 1 } else d)
    else l ++ [⟨rl, BitVec.ofNat 64 a, 1, finfo⟩]
  s.setLp lp { s.lp lp with deferred := l' }

/-- Marks the line a store has dirtied with the store's attribute (R75). -/
def State.dirtied (s : State) (t ln : Nat) (scratch : Bool) : State :=
  s.setCline t ln { s.cline t ln with scratch := scratch }

/-- Writes bytes into the coherent value of a line. -/
def State.pokeLine (s : State) (r : LineRef) (off : Nat) (data : List Byte) : State :=
  { s with mem := { s.mem with cur := s.mem.cur.setBytes (r.key * 256 + off) data } }

/-- Whether a store to a line ends in a bus error (R28, R90, R247, R341): no memory is there, or its port is not admitted and the store
needs the port's memory: a line the twin does not hold whole and no cache supplies, or, with the L2 not enabled, a partial write by
the home. -/
def State.storeFails (s : State) (t ln : Nat) (whole : Bool) : Bool :=
  match s.lineRef ln with
  | none => true
  | some r =>
    let c := s.cline t ln
    let held := decide (c.st ≠ .i ∧ c.valid = allSectors) || decide (c.st = .i ∧ (s.cline (64 + t / 4) ln).st ≠ .i)
    if ¬ r.own ∨ s.portState r.port = 2 ∨ whole then false
    else if s.l2On t then !held && !s.cacheSupplies r ln
    else !(decide (c.st = .m ∨ c.st = .e ∨ c.st = .o))

/-- One line's piece of a store enters the memory system (R216, R217, R247, R258): through the L1D into the L2's line, obtained in M; with the
L2 not enabled, into a line held in M, E or O and through to the home, else as a write by the home.  `none`: it waits for
the line's open transaction (R259).  A bus error is recorded against the LP (R144, R341). -/
def State.storePiece (s : State) (lp : LpId) (st : GStore) (ln off : Nat) (data : List Byte) : Option State :=
  let t := (s.lp lp).twin.val
  let bus (s : State) : Option State := some (s.defer lp st.level (ln * 256 + off) st.finfo)
  match s.lineRef ln with
  | none =>
    if s.pathOf false st.level (ln * 256 + off) = .window then
      some (s.lsStore ((ln * 256 + off - 0xD000000000000) % 0x400000000) data)
    else bus s
  | some r =>
    let c := s.cline t ln
    if s.l2On t then
      let s := (s.countMisses lp false ln off data.length).promote t ln
      let done (s : State) : Option State := some ((s.l1Use (64 + t) ln (sectorsOf off data.length)).endMooring t ln)
      if st.zero then
        match s.obtainZero t ln with
        | .ok _ s => done (s.dirtied t ln st.scratch)
        | .bus s => bus s
        | .wait => none
      else
        match s.obtainOwned t ln with
        | .ok _ s => done ((s.pokeLine r off data).dirtied t ln st.scratch)
        | .bus s => bus s
        | .wait => none
    else if c.st = .m ∨ c.st = .e ∨ c.st = .o then
      let s := s.pokeLine r off data
      let s := s.setCline t ln { c with st := if c.st = .o then .s else .e }
      some ((s.writeHome r st.scratch).endMooring t ln)
    else
      match (if data.length = 256 then s.writeFull t ln data false st.scratch else s.writePartial t ln off data) with
      | .ok _ s => some (s.setCline t ln CLine.none)
      | .bus s => bus s
      | .wait => none

/-- The pieces of a store in ascending order (R307); the rest of the store where a piece has to wait. -/
def storePieces (lp : LpId) (st : GStore) : State → List (Nat × Nat × Nat) → List Byte → State × Option GStore
  | s, [], _ => (s, none)
  | s, (ln, off, n) :: r, data =>
    match s.storePiece lp st ln off (data.take n) with
    | some s => storePieces lp st s r (data.drop n)
    | none => (s, some { st with addr := ln * 256 + off, bytes := data })

/-- A store leaves the gangway store buffer (R216): what of it has to wait stays. -/
def State.performStore (s : State) (lp : LpId) (st : GStore) : State × Option GStore :=
  storePieces lp st s (piecesOf st.addr st.bytes.length) st.bytes

/-- Stores leave in program order up to the first that has to wait; the rest stays. -/
def performStores (lp : LpId) : State → List GStore → State × List GStore
  | s, [] => (s, [])
  | s, st :: r =>
    match s.performStore lp st with
    | (s, none) => performStores lp s r
    | (s, some x) => (s, x :: r)

/-- The stores of matched windows that wait are tried again (R216, R258, R259). -/
def State.drainStores (s : State) (lp : LpId) : State :=
  if (s.lpv lp).releasing = [] then s
  else
    let (s, l) := performStores lp s (s.lpv lp).releasing
    s.setLpv lp { s.lpv lp with releasing := l }

/-- The stores of a window that has matched leave in program order, behind any that still wait (R216). -/
def State.release (s : State) (lp : LpId) (l : List GStore) : State :=
  if l = [] ∧ (s.lpv lp).releasing = [] then s
  else (s.setLpv lp { s.lpv lp with releasing := (s.lpv lp).releasing ++ l }).drainStores lp

/-- Whether every store of a matched window has been performed (R213, R293, R302). -/
def State.released (s : State) (lp : LpId) : Bool := (s.lpv lp).releasing.isEmpty

end Sys2Proof.Machine
end

