-- ==== Sys2Proof/Machine/LpOps.lean ====
section
/-! DEFINITION. What every instruction shares: checking windows (R209 to R222), taking an exception (R135 to R146), retiring. -/

namespace Sys2Proof.Machine

/-! ## Checking windows -/

/-- The checkpoint of an LP (R218). -/
def State.ckptOf (s : State) (lp : LpId) (e : Option Exc) : Ckpt :=
  let l := s.lp lp
  { slips := l.slips, run := l.run, tsbpS := l.tsbpS, tsbpH := l.tsbpH, tsbpK := l.tsbpK, part := l.part, zx := l.zx,
    latS := l.latS, latH := l.latH, latK := l.latK, resv := (s.lpv lp).resv, exc := e }

/-- A window just opened. -/
def Win.fresh (c : Ckpt) : Win := ⟨0, 0, [], c, 0, 0, [], [], []⟩

/-- A window in which nothing has happened yet. -/
def Win.empty (w : Win) : Bool := decide (w.retired = 0 ∧ w.stores = [] ∧ w.words = 0)

/-- Opens a window at the running slip's state, with checking on (R211, R232). -/
def State.openWin (s : State) (lp : LpId) (e : Option Exc) : State :=
  let v := s.lpv lp
  if v.unchecked ∨ v.win.isSome then s
  else s.setLpv lp { v with win := some (Win.fresh (s.ckptOf lp e)) }

/-- The registers of a slip as a checkpoint holds them; what the timetable keeps of the slip stays (R163, R218). -/
def Slip.back (now old : Slip) : Slip :=
  { old with task := now.task, unbound := now.unbound, latch := now.latch, waiting := now.waiting, dirty := now.dirty ||| old.dirty,
             lastRun := now.lastRun }

/-- An asynchronous exception whose entry a discarded window held is due again (R145, R218, R221): an interrupt is held by the LP, any other
stands again in what it reports. -/
def State.reraise (s : State) (lp : LpId) (e : Exc) : State :=
  let l := s.lp lp
  let c := e.cls.toNat
  let due (t : Nat) : State :=
    let k := l.tasks.get t Task.none
    if k.valid = true then s.setLp lp { l with tasks := l.tasks.put t { k with fillDue := true } Task.none } else s
  if c = 0x0C then s.setLp lp { l with held := l.held ++ [e] }
  else if c = 0x06 then s.setLp lp { l with abandoned := some { e with sync := true } }
  else if c = 0x07 then
    let lv := e.target.getD 2
    let n := e.sub.toNat
    let ds := if l.deferred.any (fun d => decide (d.level = lv)) then
        l.deferred.map (fun d => if d.level = lv then { d with addr := e.faddr, count := d.count + n, finfo := e.finfo } else d)
      else l.deferred ++ [⟨lv, e.faddr, n, e.finfo⟩]
    s.setLp lp { l with deferred := ds }
  else if c = 0x0D then s.setLp lp { l with stepDue := true }
  else if c = 0x0E then due (e.sub.toNat % 64)
  else if c = 0x09 ∧ e.sub = 3 then { s with live := { s.live with linesLost := s.live.linesLost ++ [(bits l.part 5 0, e.faddr)] } }
  else if c = 0x09 ∧ e.sub = 4 then s.setLp lp { l with ckptDue := l.ckptDue ||| (e.finfo.truncate 5) }
  else if c = 0x09 ∧ e.sub = 5 then due (e.finfo.toNat)
  else s

/-- A wake that a discarded window consumed waits again, for its task or in the slip's latch (R185, R213). -/
def State.giveWake (s : State) (lp : LpId) (w : Fin 8 × Nat) : State :=
  if w.2 = 0 then s.setSlipN lp w.1 { s.slipN lp w.1 with latch := true }
  else
    let l := s.lp lp
    let k := l.tasks.get w.2 Task.none
    if k.valid = true then s.setLp lp { l with tasks := l.tasks.put w.2 { k with wake := true } Task.none } else s

/-- The wakes the LP's windows in flight consumed. -/
def LpVol.took (v : LpVol) : List (Fin 8 × Nat) :=
  (v.closed.toList ++ v.win.toList).flatMap (·.took)

/-- Restores the checkpoint of a failed window; every gangway store of this window and the next goes, the reservation is cleared (R220); what was
selected at their boundaries is due again, and uncorrectable words met in the checkpoint make MACHINE_CHECK CHECKPOINT due (R219). -/
def State.restore (s : State) (lp : LpId) (c : Ckpt) : State :=
  let l := s.lp lp
  let later := ((s.lpv lp).win.map (fun w => w.ckpt.exc)).getD none
  let took := (s.lpv lp).took
  let slips := Vector.ofFn (fun k : Fin 8 => (l.slips.get k).back (c.slips.get k))
  let s := s.setLp lp { l with slips := slips, run := c.run, tsbpS := c.tsbpS,
                               tsbpH := c.tsbpH, tsbpK := c.tsbpK, part := c.part, zx := c.zx, latS := c.latS,
                               latH := c.latH, latK := c.latK, stepDue := false }
  let v := s.lpv lp
  let s := s.setLp lp { s.lp lp with ckptDue := (s.lp lp).ckptDue ||| v.badCkpt }
  let s := s.setLpv lp { v with win := none, closed := none, resv := none, items := [], micro := none, entering := none, badCkpt := 0 }
  let s := took.foldl (fun s w => s.giveWake lp w) s
  let s := match c.exc with
    | some e => s.reraise lp e
    | none => s
  match later with
  | some e => s.reraise lp e
  | none => s

/-- The mismatch record r of the collector is written (R224, R582): everything known at the second mismatch. -/
def State.mmRecord (s : State) (lp : LpId) (w : Win) (sigB : Word) : State :=
  let r := s.std.mmNext % 8
  let o := offFc + 0x400 + 0x40 * r
  let s := s.setReg o (field 5 0 lp.val ||| field 13 8 (s.lp lp).twin.val ||| field 23 16 0xFF ||| field 27 24 w.reason)
  let s := ((((s.setReg (o + 8) w.sig).setReg (o + 16) sigB).setReg (o + 24) (field 15 0 w.retired)).setReg (o + 32) 0).setReg
    (o + 40) s.live.time
  { s with std := { s.std with mmNext := s.std.mmNext + 1 } }.setLpv lp { s.lpv lp with mmIdx := r }

/-- The two signatures of the closed window are compared; `diff` is their difference (R220, R222, R236).  A second mismatch of one window
stops the twin at its checkpoint. -/
def State.compareWin (s : State) (lp : LpId) (diff : Word) : State :=
  let v := s.lpv lp
  match v.closed with
  | none => s
  | some w =>
    if diff = 0 then
      (s.setLpv lp { v with closed := none, fails := 0 }).release lp w.stores
    else
      let s := s.restore lp w.ckpt
      let t := (s.lp lp).twin.val
      if v.freeze then s
      else if v.fails = 0 then
        let s := (s.countLp lp 0x04 1).report t
        let s := s.setLpv lp { s.lpv lp with fails := 1 }
        s.openWin lp none
      else
        let s := s.setLpv lp { s.lpv lp with failed := true, fails := 0 }
        (s.mmRecord lp w (w.sig ^^^ diff)).report (0x40 + t)

/-- The difference an injected error gives the next window compared: one bit (R570). -/
def State.takeInject (s : State) (lp : LpId) : Word × State :=
  let v := s.lpv lp
  match v.inject with
  | [] => (0, s)
  | b :: r => (BitVec.ofNat 64 (2 ^ b), s.setLpv lp { v with inject := r })

/-- The current window ends in a mismatch of its own, once the window before it has matched: a word of the control store with an
uncorrectable error (R176).  What lane B's signature would have been is free. -/
def State.winFails (s : State) (lp : LpId) : State :=
  let v := s.lpv lp
  match v.win with
  | none => s
  | some w => ((s.setLpv lp { v with win := none, closed := some w }).compareWin lp (Config.freeWord s.free ||| 1)).tick1

/-- Compares the closed window within a row: the lanes agree unless an injection makes them differ. -/
def State.matchClosed (s : State) (lp : LpId) : State :=
  match (s.lpv lp).closed with
  | none => s
  | some _ => let (d, s) := s.takeInject lp; s.compareWin lp d

/-- Closes the open window with a reason; of several the lowest, so COUNT where it has its length (R212).  The window before it is compared
first (R218). -/
def State.closeWin (s : State) (lp : LpId) (reason : Nat) : State :=
  let s := s.matchClosed lp
  let v := s.lpv lp
  match v.win with
  | none => s
  | some w =>
    if w.empty then s
    else
      let reason := if s.windowLength ≤ w.retired then 0 else reason
      (s.setLpv lp { v with win := none, closed := some { w with reason := reason } }).countLp lp 0x03 1

/-- Closes the open window and has it matched: what an effect outside the twin waits for (R213). -/
def State.syncWin (s : State) (lp : LpId) (reason : Nat) : State := (s.closeWin lp reason).matchClosed lp

/-- Whether a comparison would find an injected mismatch. -/
def State.injectDue (s : State) (lp : LpId) : Bool := !(s.lpv lp).inject.isEmpty

/-- Whether closing and comparing the LP's windows now would find an injected mismatch, so that a window runs again. -/
def State.retryDue (s : State) (lp : LpId) : Bool :=
  s.injectDue lp && ((s.lpv lp).closed.isSome || (match (s.lpv lp).win with | some w => !w.empty | none => false))

/-- A store of the LP enters its gangway store buffer, or leaves at once, in program order, while checking is suspended (R215, R232). -/
def State.gstore (s : State) (lp : LpId) (st : GStore) : State :=
  let v := s.lpv lp
  if v.unchecked then s.release lp [st]
  else match v.win with
    | some w => s.setLpv lp { v with win := some { w with stores := w.stores ++ [st] } }
    | none => s.release lp [st]

/-- The 64-B sectors the open window's stores fill (R215). -/
def sectorCount (l : List GStore) : Nat :=
  ((l.map (fun st => (List.range ((st.addr + st.bytes.length + 63) / 64 - st.addr / 64)).map (fun i => st.addr / 64 + i))).flatten).eraseDups.length

/-- Before an instruction that may need `need` entries: the open window closes on COUNT when it has its length, on
CAPACITY when its entries could not take the need (R211, R215, R662).  A timetable decision that kept the running slip
is over (R164); stores that wait for a line are tried again (R259). -/
def State.beginInstr (s : State) (lp : LpId) (need : Nat) : State :=
  let s := s.setLp lp { s.lp lp with decision := 0 }
  let s := s.drainStores lp
  let s := match (s.lpv lp).win with
    | some w =>
      if s.windowLength ≤ w.retired then s.closeWin lp 0
      else if 128 < sectorCount w.stores + need then s.closeWin lp 10
      else s
    | none => s
  s.openWin lp none

/-- The fold of R209. -/
def foldSig (sig x : Word) : Word :=
  let t := (sig <<< 1) ^^^ x
  if bit sig 63 then t ^^^ 0x1B else t

/-- Puts an item behind those of a lower or equal kind and number; of two writes of one register the later stays (R210). -/
def insertItem (x : Nat × Nat × List Word) : List (Nat × Nat × List Word) → List (Nat × Nat × List Word)
  | [] => [x]
  | y :: r =>
    if x.1 = y.1 ∧ x.1 ≠ 0x10 ∧ x.2.1 = y.2.1 then x :: r
    else if x.1 < y.1 ∨ (x.1 = y.1 ∧ x.1 ≠ 0x10 ∧ x.2.1 < y.2.1) then x :: y :: r else y :: insertItem x r

/-- The items of an instruction in the order of R210. -/
def sortItems (l : List (Nat × Nat × List Word)) : List (Nat × Nat × List Word) := l.foldl (fun acc x => insertItem x acc) []

/-- Folds an instruction's items into a signature (R210). -/
def foldItems (sig : Word) (l : List (Nat × Nat × List Word)) : Word :=
  (sortItems l).foldl (fun sig x => x.2.2.foldl foldSig (foldSig sig (field 7 0 x.1 ||| field 15 8 x.2.1))) sig

/-- Whether single step may be set in a slip at this debug level (R56, R545). -/
def State.ssAllowed (s : State) (k : Fin 8) : Bool := decide (s.debug = 2 ∨ (s.debug = 1 ∧ k.val = 0))

/-- PSW.SS as it reads (R56). -/
def State.ssOf (s : State) (k : Fin 8) (x : Slip) : Bool := x.ss && s.ssAllowed k

/-- PSW of a slip of an LP (R56). -/
def State.pswOf (s : State) (lp : LpId) (k : Fin 8) : Word :=
  let x := s.slipN lp k
  field 1 0 x.level.toNat ||| field 2 2 (b2n x.ie) ||| field 3 3 (b2n (s.lpv lp).unchecked) |||
    field 4 4 (b2n (s.ssOf k x)) ||| field 5 5 (b2n s.harbour) ||| field 10 8 k.val

/-- The window's part of a retirement: the instruction's items fold into the open window, whose count rises (R210, R211). -/
def State.retireWin (s : State) (lp : LpId) : State :=
  let v := s.lpv lp
  s.setLpv lp { v with
    win := v.win.map (fun w => { w with retired := w.retired + 1, sig := foldItems w.sig v.items }), items := [] }

/-- The LP's part of a retirement: the shadow ends (R173), a single step falls due (R56), the counts rise. -/
def State.retireLp (s : State) (lp : LpId) : State :=
  let x := s.slip lp
  let s := s.setSlip lp { x with shadow := x.shadow - (if x.shadow = 0 then 0 else 1) }
  (s.setLp lp { s.lp lp with stepDue := (s.lp lp).stepDue || s.ssOf (s.lp lp).run x }).countLp lp 0x02 1

/-- An instruction, or a step, retires (R211). -/
def State.retire (s : State) (lp : LpId) : State := (s.retireWin lp).retireLp lp

/-! ## Task-state blocks -/

/-- The groups of a TSB as (offset, word) pairs (R91). -/
def tsbGroup (s : State) (lp : LpId) (k : Fin 8) : Nat → List (Nat × Word)
  | 0 => (List.finRange 16).map (fun i => (8 * i.val, (s.slipN lp k).g.get ⟨i.val, by omega⟩))
  | 1 => (List.finRange 16).map (fun i => (0x80 + 8 * i.val, (s.slipN lp k).g.get ⟨16 + i.val, by omega⟩))
  | 2 => (List.finRange 16).map (fun i => (0x100 + 8 * i.val, (s.slipN lp k).f.get ⟨i.val, by omega⟩))
  | 3 => (List.finRange 16).map (fun i => (0x180 + 8 * i.val, (s.slipN lp k).f.get ⟨16 + i.val, by omega⟩))
  | _ =>
    let x := s.slipN lp k
    ((List.finRange 16).map (fun i => [(0x200 + 16 * i.val, (x.b.get i).lo), (0x208 + 16 * i.val, (x.b.get i).hi)])).flatten ++
      [(0x300, x.pc), (0x308, s.pswOf lp k), (0x310, x.fpsr), (0x340, x.ustate), (0x348, x.uloop0), (0x350, x.uloop1)] ++
      (List.finRange 16).map (fun i => (0x380 + 8 * i.val, x.u.get i))

/-- TSB_TAG (R92). -/
def tsbTag (groups : BitVec 5) (spill : Bool) (k : Fin 8) : Word :=
  field 7 0 5 ||| field 12 8 groups.toNat ||| field 16 16 (b2n spill) ||| field 19 17 k.val

/-- A slip read back from the 1,024 bytes of a TSB: all five groups (R140, R167). The fields a slip keeps beside the
TSB stay those of `old`. -/
def slipOfTsb (old : Slip) (d : List Byte) : Slip :=
  let w (o : Nat) : Word := leWord ((d.drop o).take 8)
  { old with
    g := Vector.ofFn (fun i : Fin 32 => w (8 * i.val))
    f := Vector.ofFn (fun i : Fin 32 => w (0x100 + 8 * i.val))
    b := Vector.ofFn (fun i : Fin 16 => ⟨w (0x200 + 16 * i.val) &&& (msk 6 0 ||| msk 51 12), w (0x208 + 16 * i.val) &&& msk 47 0⟩)
    pc := w 0x300
    fpsr := w 0x310
    ustate := w 0x340
    uloop0 := w 0x348
    uloop1 := w 0x350
    u := Vector.ofFn (fun i : Fin 16 => w (0x380 + 8 * i.val)) }

/-- TSBP of a level (R65). -/
def Lp.tsbp (l : Lp) (lvl : BitVec 2) : Word := if lvl = 0 then l.tsbpK else if lvl = 1 then l.tsbpH else l.tsbpS

/-- The entry latch of a level (R139). -/
def Lp.latch (l : Lp) (lvl : BitVec 2) : Bool := if lvl = 0 then l.latK else if lvl = 1 then l.latH else l.latS

/-- Sets the entry latch of a level. -/
def Lp.setLatch (l : Lp) (lvl : BitVec 2) (v : Bool) : Lp :=
  if lvl = 0 then { l with latK := v } else if lvl = 1 then { l with latH := v } else { l with latS := v }

/-- The absolute pieces of `n` bytes at the address `z` a level-`lvl` TSBP names: through the zone extents for S,
absolute otherwise (R65, R136). -/
def State.tsbPieces (s : State) (lp : LpId) (lvl : BitVec 2) (z n : Nat) (k : AKind) :
    Except Nat (List (Nat × Nat)) :=
  if lvl.toNat ≤ 1 then .ok ((piecesOf z n).map (fun p => (p.1 * 256 + p.2.1, p.2.2)))
  else match translatePieces (s.lp lp).zx k true (piecesOf z n) with
    | .error (za, _) => .error za
    | .ok l => .ok l

/-- The first address of pieces that cannot be stored to (R90). -/
def State.firstUnstorable (s : State) (lp : LpId) (l : List (Nat × Nat)) : Option Nat :=
  (l.find? (fun p => s.storeFails (s.lp lp).twin.val (p.1 / 256) false)).map (·.1)

/-- FINFO of the accesses the module makes to a TSB, which use no bank: BANK reads 0 (log 48). -/
def tsbInfo (k : AKind) : Word := finfoOf 0 k 7 1024 0 0 false

/-- A list of words as stores of the LP at the pieces' base: word at offset `o` goes to address `base + o`. -/
def State.storeWords (s : State) (lp : LpId) (addrOf : Nat → Nat) (level : BitVec 2) (l : List (Nat × Word)) : State :=
  l.foldl (fun s e =>
    (s.gstore lp ⟨addrOf e.1, wordBytes e.2, false, level, false, tsbInfo .write⟩).item lp 0x10 8 [BitVec.ofNat 64 (addrOf e.1), e.2]) s

/-- The absolute address of offset `o` of a block whose pieces are `l`, one per line. -/
def pieceAddr (l : List (Nat × Nat)) (o : Nat) : Nat := (l.getD (o / 256) (0, 0)).1 + o % 256

/-! ## Taking an exception -/

/-- An LP locks up (R146): it stops, records the cause, and reports to the collector. -/
def State.lockUp (s : State) (lp : LpId) (e : Exc) (src : BitVec 2) (cause addr : Nat) : State :=
  let l := s.lp lp
  let s := s.setLp lp { l with st := .locked,
                               lock := field 7 0 e.cls.toNat ||| field 9 8 src.toNat ||| field 11 10 cause ||| field 31 16 e.sub.toNat,
                               lockAddr := BitVec.ofNat 64 addr }
  let s := s.setLpv lp { s.lpv lp with items := [] }
  s.report (0x100 + lp.val)

/-- The level an exception is taken to (R79, R141): its own target, else S from S or P and the current level
otherwise. -/
def targetOf (e : Exc) (cur : BitVec 2) : BitVec 2 :=
  match e.target with
  | some t => if cur.toNat < t.toNat then cur else t
  | none => if cur.toNat ≤ 1 then cur else 2

/-- Escalation (R139): a synchronous exception whose target's latch is set goes to the next more privileged level;
`none` when even K's is set. -/
def escalate (l : Lp) (sync : Bool) (t : BitVec 2) : Option (BitVec 2) :=
  if ¬ sync ∨ ¬ l.latch t then some t
  else if t = 0 then none
  else if t = 1 then (if l.latK then none else some 0)
  else if ¬ l.latH then some 1
  else if ¬ l.latK then some 0
  else none

/-- What reading a block of an LP's own memory found: its bytes, the address that failed, by translation, bus error or poison (R136, R140),
as LP_LOCK_ADDR gives it (R152), or that it waits for a line's open transaction. -/
inductive Blk where
  | ok (d : List Byte) (s : State)
  | error (addr : Nat) (s : State)
  | wait
deriving Repr

/-- Reads a block of an LP's own memory for the module: entry records and TSBs. -/
def State.readBlock (s : State) (lp : LpId) (lvl : BitVec 2) (z n : Nat) : Blk :=
  let addr (a : Nat) : Nat := if lvl.toNat ≤ 1 then a else z / 4096 * 4096 + a % 4096
  match s.tsbPieces lp lvl z n .read with
  | .error za => .error za s
  | .ok l =>
    match s.firstBad false 1 0 l with
    | some (a, _) => .error (addr a) s
    | none =>
      match (readCached lp false 0 l).run s with
      | .ok d s => .ok d s
      | .error (.exc e) s => .error (addr e.faddr.toNat) s
      | .error _ _ => .wait

/-- When what a slip holds last stopped running: its task's, or the unbound context's own (R141, R164). -/
def State.lastRunOf (s : State) (lp : LpId) (k : Fin 8) : Nat :=
  let x := s.slipN lp k
  if x.task = 0 then x.lastRun else ((s.lp lp).tasks.get x.task.toNat Task.none).lastRun

/-- The running slip stops running what it holds (R164). -/
def State.stopRun (s : State) (lp : LpId) : State :=
  let l := s.lp lp
  let x := s.slip lp
  let n := l.clock + 1
  let t := x.task.toNat
  if t = 0 then (s.setSlip lp { x with lastRun := n }).setLp lp { (s.setSlip lp { x with lastRun := n }).lp lp with clock := n }
  else s.setLp lp { l with tasks := l.tasks.put t { l.tasks.get t Task.none with lastRun := n } Task.none, clock := n }

/-- The handler slip is set up from the entry record (R135 step 5, R136); what it writes counts as written (R166). -/
def State.enterHandler (s : State) (lp : LpId) (t : BitVec 2) (d : List Byte) : State :=
  let w (o : Nat) : Word := leWord ((d.drop o).take 8)
  let s := if t = 0 ∧ (s.lp lp).run ≠ 0 then s.stopRun lp else s
  let l := s.lp lp
  let k : Fin 8 := if t = 0 then 0 else l.run
  let s := s.setLp lp ({ l with run := k, st := .running }.setLatch t true)
  let x := s.slipN lp k
  let b (lo hi : Word) : Bank := ⟨lo &&& (msk 6 0 ||| msk 51 12), hi &&& msk 47 0⟩
  s.setSlipN lp k { x with level := t, ie := false, ss := false, shadow := 0, waiting := false, pc := w 0, dirty := x.dirty ||| 18,
                           g := x.g.set 31 (w 8), b := (x.b.set 0 (b (w 0x10) (w 0x18))).set 14 (b (w 0x20) (w 0x28)) }

/-- An LP that stands at an entry reads the entry record and enters its handler (R135 steps 4 to 6); a record whose line has an open
transaction is waited for.  A failing read locks the LP up, once the window that holds the save has matched (R136, R146). -/
def State.tryEnter (s : State) (lp : LpId) : State :=
  match (s.lpv lp).entering with
  | none => s
  | some (t, e, src) =>
    match s.readBlock lp t (bits ((s.lp lp).tsbp t) 51 10 * 1024 + 0x400) 64 with
    | .wait => s
    | .error a s =>
      let s := s.setLpv lp { s.lpv lp with entering := none }
      if s.retryDue lp then s.syncWin lp 4 else (s.syncWin lp 4).lockUp lp e src 1 a
    | .ok d s =>
      let s := (s.setLpv lp { s.lpv lp with entering := none }).enterHandler lp t d
      let s := s.item lp 0x20 0 [(s.slip lp).pc]
      let v := s.lpv lp
      let w := v.win.map (fun w => { w with sig := foldItems w.sig v.items })
      (s.setLpv lp { v with win := w, items := [] }).countLp lp 0x0C 1

/-- What an LP waits for is tried again: the stores of matched windows, and the entry record of an exception (R135, R259). -/
def State.tryWaits (s : State) (lp : LpId) : State := (s.drainStores lp).tryEnter lp

/-- Every LP's waits are tried again, where a transaction has closed or a write has been acknowledged. -/
def State.wakeWaiters (s : State) : State := (List.finRange 64).foldl (fun s n => s.tryWaits n) s

/-- The words of an exception save (R91 to R96): of the groups `bad` names every word is saved as 0 (R219). -/
def State.saveWords (s : State) (lp : LpId) (e : Exc) (src : BitVec 2) (bad : BitVec 5) : List (Nat × Word) :=
  let k := (s.lp lp).run
  let groups := (List.range 5).map (fun g =>
    if bad.getLsbD g then (tsbGroup s lp k g).map (fun w => (w.1, (0 : Word)))
    else (tsbGroup s lp k g).map (fun w => if w.1 = 0x300 then (0x300, e.pc) else w))
  groups.flatten ++
    [(0x318, tsbTag 31 false k),
     (0x320, field 7 0 e.cls.toNat ||| field 9 8 src.toNat ||| field 31 16 e.sub.toNat),
     (0x328, e.faddr), (0x330, e.finfo), (0x338, e.iword)]

/-- The entry of an exception at a window's start (R135 steps 1 and 3 to 6): its level, the save, the entry.  Where TSBP.VALID is 0
LP_LOCK_ADDR is the address its ADDR names, which R152 says of RFL only (DESIGN CHOICE, log 54). -/
def State.saveEnter (s : State) (lp : LpId) (e : Exc) (bad : BitVec 5) : State :=
  let src := (s.slip lp).level
  match escalate (s.lp lp) e.sync (targetOf e src) with
  | none => s.lockUp lp e src 3 e.faddr.toNat
  | some t =>
    let tb := (s.lp lp).tsbp t
    let z := bits tb 51 10 * 1024
    if ¬ bit tb 0 then s.lockUp lp e src 0 z
    else match s.tsbPieces lp t z 1024 .write with
      | .error za => s.lockUp lp e src 0 za
      | .ok l =>
        match s.firstUnstorable lp l with
        | some a => s.lockUp lp e src 0 (if t = 2 then z + (a % 1024) else a)
        | none =>
          let s := s.storeWords lp (pieceAddr l) t (s.saveWords lp e src bad)
          (s.setLpv lp { s.lpv lp with entering := some (t, e, src) }).tryEnter lp

/-- The LP's windows have closed: the window of an entry begins (R135 step 2, R212). -/
def State.entryWin (s : State) (lp : LpId) (e : Exc) : State :=
  let s := s.setLpv lp { s.lpv lp with resv := none, win := none }
  s.openWin lp (if e.sync then none else some e)

/-- Taking an exception (R135): close the window and clear the reservation, save the slip into the TSB of the target
level, read the entry record, set up the handler slip, set the latch.  A mismatch found at the close runs the window
again and leaves the exception for the boundary it comes from (R220, R221). -/
def State.takeException (s : State) (lp : LpId) (e : Exc) : State :=
  let s := s.setLpv lp { s.lpv lp with items := [] }
  if s.retryDue lp then s.syncWin lp 4 else ((s.syncWin lp 4).entryWin lp e).saveEnter lp e 0

/-- A lock-up by a failing read of RFL, once the LP's windows have matched (R140, R146). -/
def State.lockRfl (s : State) (lp : LpId) (addr : Nat) : State :=
  if s.retryDue lp then s.syncWin lp 3
  else (s.syncWin lp 3).lockUp lp (excOf 0 0 0 0) (s.slip lp).level 2 addr

/-! ## Events (R154 to R160) -/

/-- The instruction word at the saved PC (R96), where it can be read; 0 elsewhere. -/
def State.iwordAt (s : State) (lp : LpId) : Word :=
  let rd (o : Word) : Option Nat :=
    match s.formAccess lp 0 o 4 .exec 2 with
    | .error _ => none
    | .ok l => if (s.firstBad false 1 0 l).isSome then none
               else some (leNat ((l.map (fun p => s.lpBytes lp p.1 p.2)).flatten))
  let pc := (s.slip lp).pc
  match rd pc with
  | none => 0
  | some w =>
    let major := w / 2 ^ 26
    if (0x28 ≤ major ∧ major < 0x30) ∨ (0x30 ≤ major ∧ major < 0x3E) then
      BitVec.ofNat 64 (w + (rd (pc + 4)).getD 0 * 2 ^ 32)
    else BitVec.ofNat 64 w

/-- EVT_SRC_n (R156). -/
def State.evt (s : State) (n : Nat) : Word := s.reg (offEvt + 8 * n)

/-- A source is pending, enabled and of a mode for an LP of this module (R156). -/
def State.evtPending (s : State) (n : Nat) (mode : Bool) (lp : LpId) : Bool :=
  let w := s.evt n
  bit w 0 && bit w 1 && (bit w 2 == mode) && decide (bits w 4 3 ≠ 3) && decide (bits w 10 5 = lp.val) &&
    decide (lp.val < s.lpCount)

/-- Whether an interrupt of level `lvl` for partition `part` may be taken now (R158, R173). -/
def State.irqMay (s : State) (lp : LpId) (lvl part : Nat) : Bool :=
  let l := s.lp lp
  let x := s.slip lp
  let ie := x.ie && decide (x.shadow = 0)
  if lvl = 0 then !l.latK
  else if lvl = 1 then decide (1 ≤ x.level.toNat) && ie && !l.latH
  else decide (2 ≤ x.level.toNat) && ie && !l.latS && decide (part = bits l.part 5 0)

/-- An interrupt an LP may take: its level, its source, and whether the LP holds it since a retry. -/
structure Irq where
  lvl : Nat
  src : Nat
  held : Option Exc
deriving DecidableEq, Repr

/-- The event sources with a register that differs from its reset value, ascending. -/
def State.evtListed (s : State) : List Nat :=
  s.live.regs.filterMap (fun e => if offEvt ≤ e.1 ∧ e.1 < offEvt + 0x8000 then some ((e.1 - offEvt) / 8) else none)

/-- The interrupts an LP may take now: those it holds since a retry (R221), and the pending sources (R158). -/
def State.irqs (s : State) (lp : LpId) : List Irq :=
  ((s.lp lp).held.filterMap (fun e =>
    let n := e.sub.toNat
    let lvl := (e.target.getD 0).toNat
    if s.irqMay lp lvl (bits (s.evt n) 23 18) then some ⟨lvl, n, some e⟩ else none)) ++
  s.evtListed.filterMap (fun n =>
    let w := s.evt n
    if s.evtPending n false lp && s.irqMay lp (bits w 4 3) (bits w 23 18) then some ⟨bits w 4 3, n, none⟩ else none)

/-- The interrupt an LP takes next: the most privileged level, then the lowest source (R160). -/
def State.irqNext (s : State) (lp : LpId) : Option Irq :=
  (s.irqs lp).foldl (fun best x => match best with
    | none => some x
    | some b => if x.lvl < b.lvl ∨ (x.lvl = b.lvl ∧ x.src < b.src) then some x else best) none

/-- IWORD of an exception taken at a boundary: in a routine the custom instruction (R196, which the model lets go before R96: log 53),
else the instruction at the saved PC where the class has one (`word`). -/
def State.asyncWord (s : State) (lp : LpId) (word : Bool) : Word :=
  match (s.lpv lp).micro with
  | some m => m.word.setWidth 64
  | none => if word then s.iwordAt lp else 0

/-- An asynchronous exception of class `cls` to level `t`; its saved PC is the first instruction not executed. -/
def State.asyncExc (s : State) (lp : LpId) (cls sub : Nat) (faddr : Word) (t : BitVec 2) (word : Bool) : Exc :=
  { excOf cls sub faddr 0 with target := some t, sync := false, pc := (s.slip lp).pc, iword := s.asyncWord lp word }

/-- MACHINE_CHECK CHECKPOINT is due: a retry or a sparing has met uncorrectable checkpoint words (R143, R219). -/
def State.ckptDue (s : State) (lp : LpId) : Bool := decide ((s.lp lp).ckptDue ≠ 0) && !(s.lp lp).latK

/-- MACHINE_CHECK CHECKPOINT is taken to K from the start of the failed window, the words of the groups met saved as 0 (R143, R219). -/
def State.ckptTake (s : State) (lp : LpId) : State :=
  if s.retryDue lp then s.syncWin lp 4
  else
    let bad := (s.lp lp).ckptDue
    let e := s.asyncExc lp 0x09 4 0 0 true
    let s := (s.setLp lp { s.lp lp with ckptDue := 0 }).syncWin lp 4
    (s.entryWin lp { e with finfo := bad.setWidth 64 }).saveEnter lp e bad

/-- The BUS_PRECISE of a device access that a landing abandoned is taken, before anything else (R365). -/
def State.abandonedTake (s : State) (lp : LpId) (e : Exc) : State :=
  if s.retryDue lp then s.syncWin lp 4
  else
    let s := (s.setLp lp { s.lp lp with abandoned := none }).syncWin lp 4
    (s.entryWin lp { e with sync := false }).saveEnter lp e 0

/-! ## Running an instruction -/

/-- A SPARE or FENCE of class 0 or 2 stops the twin at the window boundary it stands at (R560); while checking is suspended no sparing
arises (R232). -/
def State.askDue (s : State) (lp : LpId) : Bool :=
  (s.lpv lp).ask.isSome && !(s.lpv lp).unchecked && (match (s.lpv lp).win with
    | none => true
    | some w => decide (s.windowLength ≤ w.retired) || w.empty)

/-- Whether an LP is in a state to take its next instruction: it runs, no device access holds it, no freeze or stop is
asked for, no second mismatch or sparing holds its twin (R146, R222, R223, R236, R287, R300). -/
def State.lpReady (s : State) (lp : LpId) : Bool :=
  let l := s.lp lp
  let v := s.lpv lp
  s.mainOn && s.pwr.lpsOn && decide (lp.val < s.lpCount) && decide (l.st = .running) && v.devLoad.isNone &&
    v.devStore.isNone && v.entering.isNone && !v.halted && !v.freeze && !v.failed && v.sparing.isNone && !s.askDue lp

/-- LP_STATE.STATE: an LP that moves to a spare twin is STOPPED (R150, R223). -/
def State.stateOf (s : State) (lp : LpId) : LpSt := if (s.lpv lp).sparing.isSome then .stopped else (s.lp lp).st

/-- Whether the LP runs its S and P code in forerunner compatibility mode (R205, R615). -/
def State.compat (s : State) (lp : LpId) : Bool :=
  decide (2 ≤ (s.slip lp).level.toNat) && bit (s.reg (offCfg + 0x100 + 0x20 * bits (s.lp lp).part 5 0)) 1

/-- Whether a slip of 1 to 7 is free: it holds neither a bound task nor an unbound context (R163). -/
def State.slipFree (s : State) (lp : LpId) (k : Fin 8) : Bool :=
  decide (k.val ≠ 0 ∧ (s.slipN lp k).task = 0) && !(s.slipN lp k).unbound

/-- The slip that holds a task, if any (R162). -/
def State.slipOfTask (s : State) (lp : LpId) (t : Nat) : Option (Fin 8) :=
  if t = 0 then none else (List.finRange 8).find? (fun k => decide ((s.slipN lp k).task.toNat = t))

/-- The lowest-numbered free slip (R169). -/
def State.lowestFree (s : State) (lp : LpId) : Option (Fin 8) := (List.finRange 8).find? (fun k => s.slipFree lp k)

/-- The lowest-numbered spilled task of the LP's partition whose wake started a hardware fill (R169); the spec gives no order among
several (log 49). -/
def State.fillTask (s : State) (lp : LpId) : Option Nat :=
  ((s.lp lp).tasks.find? (fun e => e.2.valid && e.2.fillDue &&
    decide (e.2.part.toNat = bits (s.lp lp).part 5 0) && (s.slipOfTask lp e.1).isNone)).map (·.1)

/-- A wake to a spilled task found no slip free: SLIP_OVERFLOW is due (R169). -/
def State.overflowDue (s : State) (lp : LpId) : Bool := (s.fillTask lp).isSome && (s.lowestFree lp).isNone

/-- A slip the timetable may run: 1 to 7, a bound task or unbound context that is not WAITING (R163, R164). -/
def State.slipReady (s : State) (lp : LpId) (k : Fin 8) : Bool :=
  decide (k.val ≠ 0) && !s.slipFree lp k && !(s.slipN lp k).waiting

/-- The priority of what a slip holds: the task's, 0 for an unbound context (R163). -/
def State.slipPrio (s : State) (lp : LpId) (k : Fin 8) : Nat :=
  let t := (s.slipN lp k).task.toNat
  if t = 0 then 0 else ((s.lp lp).tasks.get t Task.none).prio.toNat

/-- Whether slip `a` goes before slip `b`: higher priority; among equals the running one, unless it yielded, then the
one least recently run (R164, R165). -/
def State.before (s : State) (lp : LpId) (yielded : Bool) (a b : Fin 8) : Bool :=
  let pa := s.slipPrio lp a
  let pb := s.slipPrio lp b
  if pa ≠ pb then decide (pb < pa)
  else
    let run := (s.lp lp).run
    if a = run then !yielded
    else if b = run then yielded
    else decide (s.lastRunOf lp a < s.lastRunOf lp b)

/-- The slip the timetable runs next (R164), of several that stopped running equally long ago the lowest-numbered (log 49); `none` when
no task is READY or RUNNING. -/
def State.choose (s : State) (lp : LpId) (yielded : Bool) : Option (Fin 8) :=
  ((List.finRange 8).filter (fun k => s.slipReady lp k)).foldl
    (fun best k => match best with
      | none => some k
      | some b => if s.before lp yielded k b then some k else some b) none

/-- A timetable decision is due that changes the running slip (R164); slip 0 is never switched from (R137). -/
def State.switchDue (s : State) (lp : LpId) : Bool :=
  decide ((s.lp lp).decision ≠ 0 ∧ (s.lp lp).run.val ≠ 0) &&
    decide (s.choose lp (decide ((s.lp lp).decision = 2)) ≠ some (s.lp lp).run)

/-- The lines lost that wait for the partition the LP runs (R143). -/
def State.linesDue (s : State) (lp : LpId) : Bool :=
  let l := s.lp lp
  !l.latS && decide (2 ≤ (s.slip lp).level.toNat) && s.live.linesLost.any (fun e => decide (e.1 = bits l.part 5 0))

/-- The report of deferred bus errors that is due, the most privileged report level first (R144). -/
def State.deferredDue (s : State) (lp : LpId) : Option Deferred :=
  let l := s.lp lp
  let due (k : BitVec 2) := l.deferred.find? (fun d => decide (d.level = k ∧ k.toNat ≤ (s.slip lp).level.toNat) && !l.latch k)
  match due 0 with
  | some d => some d
  | none => match due 1 with
    | some d => some d
    | none => due 2

/-- The number of the first of items 1 to 4 of R145 that is due at the boundary, 0 for none. -/
def State.asyncItem (s : State) (lp : LpId) : Nat :=
  if s.ckptDue lp ∨ s.linesDue lp then 1
  else if (s.deferredDue lp).isSome then 2
  else if (s.lp lp).stepDue ∧ ¬ (s.lp lp).latK then 3
  else if s.overflowDue lp ∧ ¬ (s.lp lp).latK then 4
  else 0

/-- An exception of items 1 to 5 of R145 or a slip switch (item 6) is due at the boundary, so that the instruction does not start. -/
def State.boundaryDue (s : State) (lp : LpId) : Bool :=
  decide (s.asyncItem lp ≠ 0) || (s.irqNext lp).isSome || s.switchDue lp

/-- The fetch of the instruction's words through B0 (R71, R74): its faults in the order of item 7 of R145. -/
def fetchWords (lp : LpId) : Nat → Word → Act Unit
  | 0, _ => pure ()
  | k + 1, o => do
    let s ← get
    let l ← liftExc (s.formAccess lp 0 o 4 .exec 2)
    let fi := finfoOf 0 .exec 2 4 0 0 false
    let lvl := (s.slip lp).level
    match firstPiece (fun a => decide (s.pathOf false lvl a ≠ .cached ∧ s.pathOf false lvl a ≠ .window)) fi l with
    | some (a, fi) => raiseExc (excBus a fi)
    | none => do
      let _ ← readCached lp true fi (l.filter (fun p => decide (s.pathOf false lvl p.1 = .cached)))
      fetchWords lp k (o + 4)

/-- A fetch fault of an instruction: IWORD is 0 (R96), the saved PC the instruction (R141); a fault on the second word
reports that word's offset (R84). -/
def excAt (s : State) (lp : LpId) (e : Exc) (iword : Word) : Exc := { e with pc := (s.slip lp).pc, iword := iword }

/-- TTWAIT, or a WAIT on EVT, finds no wake (R163, R165, R185): its window closes with `reason`, the slip waits at it, slip 0 idles and another slip leaves the
choice to the timetable. -/
def State.waitHere (s : State) (lp : LpId) (reason : Nat) : State :=
  let s := s.setLpv lp { s.lpv lp with items := [] }
  if s.retryDue lp ∧ ¬ (s.lpv lp).unchecked then s.syncWin lp reason
  else
    let s := s.syncWin lp reason
    let s := s.setSlip lp { s.slip lp with waiting := true }
    if (s.lp lp).run = 0 then s.setLp lp { s.lp lp with st := .idle }
    else
      let s := s.stopRun lp
      s.setLp lp { s.lp lp with decision := 1 }

/-- A comparison made on the way from `s` to `s'` found an injected mismatch: the LP stands at a checkpoint again. -/
def State.retriedTo (s s' : State) (lp : LpId) : Bool :=
  decide ((s'.lpv lp).inject.length ≠ (s.lpv lp).inject.length)

/-- One instruction of an LP: `words` long, `iword` as IWORD reports it, needing `need` gangway entries (R662), with its own
effect `body` and its end `fin`.  It starts only where nothing else is due (R145); a retry at the window's end before it, or
a wait in its body or its end, leaves it for a later command; the BUS_PRECISE of an access that a landing abandoned (R365), or a
MACHINE_CHECK CHECKPOINT (R219), is taken in its place.  `compat`: a forerunner instruction, which alone runs in compatibility
mode (R205). -/
def State.runIn {β : Type} (compat : Bool) (s : State) (lp : LpId) (words : Nat) (iword : Word) (need : Nat) (body : Act β)
    (fin : β → State → Option State) : State :=
  if ¬ s.lpReady lp ∨ (s.lpv lp).micro.isSome then s
  else match (s.lp lp).abandoned with
  | some e => s.abandonedTake lp e
  | none =>
    if s.ckptDue lp then s.ckptTake lp
    else if s.compat lp ≠ compat ∨ s.boundaryDue lp then s
    else
    let s0 := s.beginInstr lp need
    if s.retriedTo s0 lp then s0
    else match (fetchWords lp words (s0.slip lp).pc).run s0 with
    | .error (.exc e) s1 => s1.takeException lp (excAt s1 lp e 0)
    | .error _ _ => s
    | .ok _ s1 =>
      match body.run s1 with
      | .error .stall _ => s
      | .error .wait s2 => s2.waitHere lp 8
      | .error (.exc e) s2 => s2.takeException lp (excAt s2 lp e iword)
      | .error (.lock a) s2 => s2.lockRfl lp a
      | .ok b s2 => (fin b s2).getD s

/-- An instruction of this part's own set. -/
def State.runWith {β : Type} (s : State) (lp : LpId) (words : Nat) (iword : Word) (need : Nat) (body : Act β)
    (fin : β → State → Option State) : State := s.runIn false lp words iword need body fin

/-- The end of an instruction whose effects outside the twin wait for its window (R212, R213): it retires, its window closes
with `reason` and is matched, and only then `post` acts; an injected mismatch runs the window again instead.  While a store of
a matched window waits for its line, the instruction waits too (R259, R293, R303). -/
def finSync (lp : LpId) (reason : Nat) (post : State → State) (s : State) : Option State :=
  let s3 := s.retire lp
  let s4 := s3.syncWin lp reason
  if s3.injectDue lp ∧ ¬ (s3.lpv lp).unchecked then some s4
  else if s4.released lp then some (post s4) else none

/-- An instruction whose effects outside the twin wait for its window (R213). -/
def State.runSync (s : State) (lp : LpId) (words : Nat) (iword : Word) (need reason : Nat) (body : Act (State → State)) :
    State := s.runWith lp words iword need body (finSync lp reason)

/-- An instruction with something left to do once it has retired. -/
def State.runPost (s : State) (lp : LpId) (words : Nat) (iword : Word) (need : Nat) (body : Act (State → State)) : State :=
  s.runWith lp words iword need body (fun post s => some (post (s.retire lp)))

/-- An instruction whose body ends by setting the PC. -/
def State.runInstr (s : State) (lp : LpId) (words : Nat) (iword : Word) (need : Nat) (body : Act Unit) : State :=
  s.runWith lp words iword need body (fun _ s => some (s.retire lp))

/-- Sets the PC to the next instruction. -/
def nextPc (lp : LpId) (words : Nat) : Act Unit :=
  modify (fun s => s.setPc lp ((s.slip lp).pc + BitVec.ofNat 64 (4 * words)))

/-- Raises an exception unless a condition holds. -/
def require (c : Bool) (e : Exc) : Act Unit := if c then pure () else raiseExc e

end Sys2Proof.Machine
end

