-- ==== Sys2Proof/Machine/Operands.lean ====
section
/-! DEFINITION. The operand forms (R82 to R88), packed decimal (R124 to R127), and the frames every instruction of a
logical processor runs in. -/

namespace Sys2Proof.Machine

/-- The next state of a command. -/
abbrev Out := Host.Outcome State Fault Refusal

/-- A micro-illegal word, or a failed check of R199, is recorded in UC_FAULT (R200). -/
def State.ucFault (s : State) (lp : LpId) (cause upc entry : Nat) : State :=
  let o := offUc + 8
  let w := s.reg o
  if bit w 0 then s.setRegF o 47 32 (min 0xFFFF (bits w 47 32 + 1))
  else s.setReg o (field 0 0 1 ||| field 6 1 lp.val ||| field 10 7 cause ||| field 31 16 upc ||| field 47 32 1 ||| field 51 48 entry)

/-- USTATE.ACTIVE is cleared (R199, R200); no loop level is active any more (R197, R198). -/
def State.clearActive (s : State) (lp : LpId) : State :=
  let x := s.slip lp
  s.setSlip lp { x with ustate := setBits x.ustate 19 16 0, uloop0 := 0, uloop1 := 0, dirty := x.dirty ||| 16 }

/-- The failed check of R199: ACTIVE is cleared, UC_FAULT takes cause 10, ILLEGAL is raised.  What a retry would undo
is not recorded (R213). -/
def failResume {α : Type} (lp : LpId) : Act α := do
  let s ← get
  let u := (s.slip lp).ustate
  let s := if s.injectDue lp ∧ ¬ (s.lpv lp).unchecked then s else s.ucFault lp 10 (bits u 15 0) (bits u 23 20)
  set (s.clearActive lp)
  raiseExc excIllegal

/-- What every instruction but the custom ones checks as it issues: USTATE.ACTIVE is 0 (R199), and its encoding names
an instruction (R98). -/
def issueCheck (i : Instr) (lp : LpId) : Act Unit := do
  let s ← get
  if bit (s.slip lp).ustate 16 then failResume lp else require i.wf excIllegal

/-- One instruction of an LP as a command: its words and IWORD are its encoding, an encoding that names no
instruction is illegal (R98), `need` are its gangway entries (R662). -/
def runLp (i : Instr) (lp : LpId) (need : Nat) (body : Act Unit) (s : State) : Out :=
  .next (s.runInstr lp (encode i).length (iwordOf i) need (do issueCheck i lp; body))

/-- The same for an instruction that closes its window with `reason` and acts outside the twin once it has matched
(R212, R213). -/
def runLpSync (i : Instr) (lp : LpId) (need reason : Nat) (body : Act (State → State)) (s : State) : Out :=
  .next (s.runSync lp (encode i).length (iwordOf i) need reason (do issueCheck i lp; body))

/-- The same for an instruction with something left to do once it has retired. -/
def runLpPost (i : Instr) (lp : LpId) (need : Nat) (body : Act (State → State)) (s : State) : Out :=
  .next (s.runPost lp (encode i).length (iwordOf i) need (do issueCheck i lp; body))

/-- Raises PRIVILEGED at a level less privileged than `lvl` (R48). -/
def requireLevel (lp : LpId) (lvl : Nat) : Act Unit := do
  let s ← get
  require (decide ((s.slip lp).level.toNat ≤ lvl)) excPrivileged

/-! ## Operand forms -/

/-- An immediate, sign-extended (R101). -/
def Imm.signed : Imm → Word
  | .short v => v.signExtend 64
  | .long v => v.signExtend 64

/-- An immediate, zero-extended (R101). -/
def Imm.unsigned : Imm → Word
  | .short v => v.setWidth 64
  | .long v => v.setWidth 64

/-- The offset of a memory form: G[base] plus the displacement, scaled by the access size in the short form (R83),
in bytes in the long one (R84). -/
def memOffset (base : Word) (size : Nat) : Disp → Word
  | .short v => base + v.signExtend 64 * BitVec.ofNat 64 size
  | .long v => base + v.signExtend 64

/-- A branch target: the branch's offset plus 4 times the signed word offset (R85). -/
def branchTarget (pc : Word) (off : BitVec 21) : Word := pc + off.signExtend 64 * 4

/-- A target taken from a register: bits 1:0 are 0 (R85). -/
def regTarget (v : Word) : Word := v &&& ~~~ 3

/-- An instruction with one general result of two general sources (R99, R103). -/
def aluRR (i : Instr) (lp : LpId) (d s1 s2 : Reg) (f : Word → Word → Word) (s : State) : Out :=
  runLp i lp 0 (do
    modify (fun s => s.setG lp d (f (s.g lp s1) (s.g lp s2)))
    nextPc lp 1) s

/-- An instruction with one general result of one general source. -/
def aluR (i : Instr) (lp : LpId) (d s1 : Reg) (f : Word → Word) (s : State) : Out :=
  runLp i lp 0 (do
    modify (fun s => s.setG lp d (f (s.g lp s1)))
    nextPc lp 1) s

/-- An instruction with one general result of a source and an immediate (R101). -/
def aluRI (i : Instr) (lp : LpId) (d s1 : Reg) (imm : Word) (f : Word → Word → Word) (s : State) : Out :=
  runLp i lp 0 (do
    modify (fun s => s.setG lp d (f (s.g lp s1) imm))
    nextPc lp (encode i).length) s

/-- Sets the PC to a branch target, with its signature item (R210). -/
def jumpTo (lp : LpId) (t : Word) : Act Unit := modify (fun s => (s.setPc lp t).item lp 0x20 0 [t])

/-- A conditional branch on a register (R102). -/
def branchIf (i : Instr) (lp : LpId) (off : BitVec 21) (cond : State → Bool) (s : State) : Out :=
  runLp i lp 0 (do
    let s ← get
    if cond s then jumpTo lp (branchTarget (s.slip lp).pc off) else nextPc lp 1) s

/-! ## Arithmetic on words -/

/-- Rotation right (R99). -/
def rotr (a : Word) (n : Nat) : Word := a.rotateRight n

/-- Leading zero bits, 64 for 0 (R99). -/
def clzW (a : Word) : Word := BitVec.ofNat 64 (if a = 0 then 64 else 63 - a.toNat.log2)

/-- One bits (R99). -/
def popcW (a : Word) : Word := BitVec.ofNat 64 (((List.range 64).map (fun i => b2n (bit a i))).sum)

/-- The shift amount of Gs2 (R99). -/
def shAmt (b : Word) : Nat := b.toNat % 64

/-- The shifts by their SHI selector (R101). -/
def shiftBy (kind : Nat) (a : Word) (n : Nat) : Word :=
  if kind = 0 then a <<< n else if kind = 1 then a >>> n else if kind = 2 then a.sshiftRight n else rotr a n

/-- DIV (R103, R104). -/
def divS (a b : Word) : Word :=
  if b = 0 then BitVec.allOnes 64 else BitVec.ofInt 64 (a.toInt.tdiv b.toInt)

/-- REM (R103, R104). -/
def remS (a b : Word) : Word := if b = 0 then a else BitVec.ofInt 64 (a.toInt.tmod b.toInt)

/-- DIVU (R103, R104). -/
def divU (a b : Word) : Word := if b = 0 then BitVec.allOnes 64 else BitVec.ofNat 64 (a.toNat / b.toNat)

/-- REMU (R103, R104). -/
def remU (a b : Word) : Word := if b = 0 then a else BitVec.ofNat 64 (a.toNat % b.toNat)

/-- MULH (R103). -/
def mulHS (a b : Word) : Word := BitVec.ofInt 64 (a.toInt * b.toInt / 2 ^ 64)

/-- MULHU (R103). -/
def mulHU (a b : Word) : Word := BitVec.ofNat 64 (a.toNat * b.toNat / 2 ^ 64)

/-! ## Packed decimal -/

/-- The 32 nibbles of an operand pair, most significant digit first, the sign last (R124). -/
def nibbles (lo hi : Word) : List Nat :=
  ((wordBytes lo ++ wordBytes hi).map (fun b => [b.toNat / 16, b.toNat % 16])).flatten

/-- The first invalid nibble: a digit above 9, or a sign below 0xA (R126). -/
def badNibble (l : List Nat) : Option Nat :=
  (List.range 32).find? (fun k => if k < 31 then decide (9 < l.getD k 0) else decide (l.getD k 0 < 10))

/-- The value of the low L digits with the operand's sign (R125, R126). -/
def decValue (l : List Nat) (len : Nat) : Int :=
  let m := ((l.take 31).drop (31 - len)).foldl (fun acc d => acc * 10 + d) (0 : Nat)
  let sg := l.getD 31 0
  if sg = 0xB ∨ sg = 0xD then -(m : Int) else m

/-- Decimal digits of a number, most significant first. -/
def decDigits : Nat → Nat → List Nat
  | 0, _ => []
  | k + 1, v => decDigits k (v / 10) ++ [v % 10]

/-- Packs 32 nibbles into a register pair (R124). -/
def packNibbles (l : List Nat) : Word × Word :=
  let byte (i : Nat) : Byte := BitVec.ofNat 8 (l.getD (2 * i) 0 * 16 + l.getD (2 * i + 1) 0)
  (leWord ((List.range 8).map byte), leWord ((List.range 8).map (fun i => byte (8 + i))))

/-- The result pair of a packed sum and whether it overflows L digits (R127). -/
def decResult (v : Int) (len : Nat) : (Word × Word) × Bool :=
  let m := v.natAbs
  (packNibbles (List.replicate (31 - len) 0 ++ decDigits len (m % 10 ^ len) ++ [if v < 0 then 0xD else 0xC]),
   decide (10 ^ len ≤ m))

/-! ## Floating-point frames -/

/-- The rounding mode of FPSR.RM (R58); the values 5 to 7, which only a task-state block can bring, round in a mode
the spec does not state. -/
def State.rmOf (s : State) (lp : LpId) : Rm :=
  let n := bits (s.slip lp).fpsr 2 0
  rmNum (if n < 5 then n else Config.freeNat s.free % 5)

/-- The flags of a floating-point instruction reach FPSR, or it traps (R59): the result is written only without a
trap. -/
def fpFinish (lp : LpId) (fl : BitVec 5) (write : State → State) : Act Unit := do
  let s ← get
  let x := s.slip lp
  let s := if 5 ≤ bits x.fpsr 2 0 then s.tick1 else s
  if fl.toNat &&& bits x.fpsr 20 16 ≠ 0 then do
    set (s.setSlip lp { x with fpsr := setBits x.fpsr 28 24 fl.toNat, dirty := x.dirty ||| 16 })
    raiseExc (excOf 0x0A 0 0 0)
  else do
    let s := if fl = 0 then s
      else
        let v := x.fpsr ||| field 12 8 fl.toNat
        (s.setSlip lp { x with fpsr := v, dirty := x.dirty ||| 16 }).item lp 0x04 1 [v]
    set ((write s).countLp lp 0x0F 1)

/-- A floating instruction with a floating result (R115, R116). -/
def fpToF (i : Instr) (lp : LpId) (d : Reg) (f : State → Word × BitVec 5) (s : State) : Out :=
  runLp i lp 0 (do
    let s ← get
    let (v, fl) := f s
    fpFinish lp fl (fun s => s.setF lp d v)
    nextPc lp 1) s

/-- A floating instruction with a general result (R116). -/
def fpToG (i : Instr) (lp : LpId) (d : Reg) (f : State → Word × BitVec 5) (s : State) : Out :=
  runLp i lp 0 (do
    let s ← get
    let (v, fl) := f s
    fpFinish lp fl (fun s => s.setG lp d v)
    nextPc lp 1) s

/-- The value of a floating source in a precision. -/
def State.fv (s : State) (lp : LpId) (p : Bool) (r : Reg) : FV := FV.decode (fmtOf p) (s.f lp r)

end Sys2Proof.Machine
end

