-- ==== Sys2Proof/Machine/MemInstr.lean ====
section
/-! DEFINITION. CALLM and RETM (R87 to R89), atomics and reservations (R111 to R114, R294, R309, R313 to R316), and the
resumable long instructions (R128 to R132). -/

namespace Sys2Proof.Machine

/-! ## Shared parts -/

/-- The words a STORE item carries: the address and the data in 8-byte words (R210). -/
def storeItemWords (a : Nat) (d : List Byte) : List Word :=
  BitVec.ofNat 64 a :: (List.range ((d.length + 7) / 8)).map (fun i => leWord ((d.drop (8 * i)).take 8))

/-- The pieces of a formed range enter the gangway store buffer in ascending order, with their signature items. -/
def gstorePieces (lp : LpId) (scratch : Bool) (level : BitVec 2) (finfo : Word) : List (Nat × Nat) → List Byte → State → State
  | [], _, s => s
  | (a, n) :: r, d, s =>
    gstorePieces lp scratch level (laterPiece finfo r) r (d.drop n)
      ((s.gstore lp ⟨a, d.take n, scratch, level, false, finfo⟩).item lp 0x10 (n % 256) (storeItemWords a (d.take n)))

/-- Stores `d` at a formed range, at offset `o` of its bank, that is no device access; what misses in the L2 trains the stride
detectors (R241). -/
def storeFormed (lp : LpId) (bank : BankNo) (o : Word) (finfo : Word) (l : List (Nat × Nat)) (d : List Byte) : Act Unit :=
  modify (fun s =>
    let misses := s.missesOf lp 0 l
    (gstorePieces lp (!((s.slip lp).b.get bank).dur) (s.slip lp).level finfo l d s).trainMisses lp bank o misses)

/-- Raises BUS_PRECISE at the first device access of a formed range (R113, R129), also of a frame of CALLM or RETM, of which R89 says
only that its accesses are cacheable (log 50). -/
def requireNoDevice (lp : LpId) (bank : BankNo) (finfo : Word) (l : List (Nat × Nat)) : Act Unit := do
  let s ← get
  let sl := s.slip lp
  match s.firstDevice (sl.b.get bank).dev sl.level finfo l with
  | some (a, fi) => raiseExc (excBus a fi)
  | none => pure ()

/-! ## CALLM and RETM -/

/-- The registers a mask names, ascending (R87). -/
def maskRegs (mask : BitVec 16) : List Reg :=
  (List.finRange 16).filterMap (fun i => if mask.getLsbD i.val then some ⟨8 + i.val, by omega⟩ else none)

/-- The size of a stack frame with `n` saved registers (R87). -/
def frameSize (n : Nat) : Nat := (16 + 8 * n + 15) / 16 * 16

/-- CALLM (R87, R89). -/
def execCallm (lp : LpId) (t : Reg) (mask : BitVec 16) (s : State) : Out :=
  runLp (.callm lp t mask) lp 4 (do
    let s ← get
    let rs := maskRegs mask
    let len := 16 + 8 * rs.length
    let sp := s.g lp 31 - BitVec.ofNat 64 (frameSize rs.length)
    let l ← liftExc (s.formAccess lp 14 sp len .write 7)
    let fi := finfoOf 14 .write 7 len 0 0 false
    requireNoDevice lp 14 fi l
    let words := mask.setWidth 64 :: s.g lp 30 :: rs.map (s.g lp)
    storeFormed lp 14 sp fi l (words.map wordBytes).flatten
    let target := regTarget (s.g lp t)
    modify (fun s => (s.setG lp 30 ((s.slip lp).pc + 4)).setG lp 31 sp)
    jumpTo lp target) s

/-- Restores registers in ascending order. -/
def restoreRegs (lp : LpId) : List Reg → List Byte → State → State
  | [], _, s => s
  | r :: rs, d, s => restoreRegs lp rs (d.drop 8) (s.setG lp r (leWord (d.take 8)))

/-- RETM: the tag is read and compared before the frame is checked (R88, R89). -/
def execRetm (lp : LpId) (mask : BitVec 16) (s : State) : Out :=
  runLp (.retm lp mask) lp 0 (do
    let s ← get
    let sp := s.g lp 31
    let lt ← liftExc (s.formAccess lp 14 sp 8 .read 7)
    requireNoDevice lp 14 (finfoOf 14 .read 7 8 0 0 false) lt
    let tag ← readFormed lp 14 sp (finfoOf 14 .read 7 8 0 0 false) lt
    require (decide (leWord tag = mask.setWidth 64)) excIllegal
    let rs := maskRegs mask
    let len := 16 + 8 * rs.length
    let l ← liftExc (s.formAccess lp 14 sp len .read 7)
    requireNoDevice lp 14 (finfoOf 14 .read 7 len 0 0 false) l
    let d ← readFormed lp 14 sp (finfoOf 14 .read 7 len 0 0 false) l
    let target := regTarget (s.g lp 30)
    modify (fun s => ((restoreRegs lp rs (d.drop 16) s).setG lp 30 (leWord ((d.drop 8).take 8))).setG lp 31
      (sp + BitVec.ofNat 64 (frameSize rs.length)))
    jumpTo lp target) s

/-! ## Atomics and reservations -/

/-- The size of an atomic in bytes (R111). -/
def atomicSize (dbl : Bool) : Nat := if dbl then 8 else 4

/-- A value in the size of an atomic, zero-extended (R111). -/
def atomicVal (dbl : Bool) (w : Word) : Word := if dbl then w else (w.truncate 32).setWidth 64

/-- The twin obtains a line in M before an atomic, an LRSV or a STCOND touches it (R309, R316); nothing to obtain while
its L2 is not enabled (R247, R249).  A miss trains the stride detectors (R241). -/
def acquireLine (lp : LpId) (bank : BankNo) (o : Word) (finfo : Word) (l : List (Nat × Nat)) : Act Unit := do
  let s ← get
  let t := (s.lp lp).twin.val
  let a := (l.headD (0, 0)).1
  let ln := a / 256
  if ¬ s.l2On t ∨ (s.lineRef ln).isNone then pure ()
  else
    let misses := s.missesOf lp 0 l
    match s.obtainOwned t ln with
    | .wait => throw .stall
    | .bus s => do set s; raiseExc (excBus a finfo)
    | .ok f s =>
      set (s.trainMisses lp bank o misses)
      match s.foundHere ln f with
      | .poisoned => raiseExc (excPoison false a)
      | .mismatch => raiseExc (excPoison true a)
      | .good => pure ()

/-- The check of an atomic's address: aligned (R112), formed and checked, no device access (R113). -/
def formAtomic (lp : LpId) (s1 : Reg) (bank : BankNo) (dbl : Bool) (k : AKind) : Act (List (Nat × Nat)) := do
  let s ← get
  let o := s.g lp s1
  let n := atomicSize dbl
  let fi := finfoOf bank.val k (sizeCode k n) n 0 0 false
  require (decide (o.toNat % n = 0)) (excOf 0x03 0 o fi)
  let l ← liftExc (s.formAccess lp bank o n k (sizeCode k n))
  requireNoDevice lp bank fi l
  pure l

/-- Whether a store of the LP's open window waits in the gangway store buffer (R294). -/
def State.ownStores (s : State) (lp : LpId) : Bool :=
  match (s.lpv lp).win with
  | some w => !w.stores.isEmpty
  | none => false

/-- The end of a FENCE or an atomic (R294): where a store of its own window waits, the window closes with COUNT and is matched, and its
stores are performed. -/
def finOwn (lp : LpId) (s : State) : Option State :=
  if s.ownStores lp then finSync lp 0 id s else some (s.retire lp)

/-- The pieces as an access is performed: in harbour mode a pair of cacheable memory is two 8-byte accesses (R311). -/
def State.asMade (s : State) (n : Nat) (l : List (Nat × Nat)) : List (Nat × Nat) :=
  match l with
  | (a, 16) :: _ =>
    let main : Bool := match regionOf a with | .main _ _ => true | _ => false
    if s.harbour ∧ n = 16 ∧ main then [(a, 8), (a + 8, 8)] else l
  | _ => l

/-- An atomic of R111 other than LRSV and STCOND: the line is held from its read until its store is performed (R309),
the window closes after it where a store of it waits (R294).  `op` gives the value stored, or none, from the old value and Gd. -/
def atomicOp (i : Instr) (lp : LpId) (d s1 : Reg) (bank : BankNo) (dbl : Bool)
    (op : State → Word → Word → Option Word) (s : State) : Out :=
  .next (s.runWith lp (encode i).length (iwordOf i) 2 (do
    issueCheck i lp
    let l ← formAtomic lp s1 bank dbl .rmw
    let n := atomicSize dbl
    let fi := finfoOf bank.val .rmw (sizeCode .rmw n) n 0 0 false
    let o := (← get).g lp s1
    acquireLine lp bank o fi l
    let d0 ← readFormed lp bank o fi l
    let old := leWord d0
    let s ← get
    match op s old (atomicVal dbl (s.g lp d)) with
    | some v => storeFormed lp bank o fi l ((wordBytes v).take n)
    | none => pure ()
    modify (fun s => (s.laneItem lp 2 d0).setG lp d old)
    nextPc lp 1) (fun _ s => finOwn lp s))

/-- SWAP (R111). -/
def execSwap (lp : LpId) (d s1 : Reg) (bank : BankNo) (dbl : Bool) (s : State) : Out :=
  atomicOp (.swap lp d s1 bank dbl) lp d s1 bank dbl (fun _ _ v => some v) s

/-- AADD (R111). -/
def execAadd (lp : LpId) (d s1 : Reg) (bank : BankNo) (dbl : Bool) (s : State) : Out :=
  atomicOp (.aadd lp d s1 bank dbl) lp d s1 bank dbl (fun _ old v => some (old + v)) s

/-- AAND (R111). -/
def execAand (lp : LpId) (d s1 : Reg) (bank : BankNo) (dbl : Bool) (s : State) : Out :=
  atomicOp (.aand lp d s1 bank dbl) lp d s1 bank dbl (fun _ old v => some (old &&& v)) s

/-- AOR (R111). -/
def execAor (lp : LpId) (d s1 : Reg) (bank : BankNo) (dbl : Bool) (s : State) : Out :=
  atomicOp (.aor lp d s1 bank dbl) lp d s1 bank dbl (fun _ old v => some (old ||| v)) s

/-- AXOR (R111). -/
def execAxor (lp : LpId) (d s1 : Reg) (bank : BankNo) (dbl : Bool) (s : State) : Out :=
  atomicOp (.axor lp d s1 bank dbl) lp d s1 bank dbl (fun _ old v => some (old ^^^ v)) s

/-- CAS: compares with Gd, stores G(d+1) (R111). -/
def execCas (lp : LpId) (d s1 : Reg) (bank : BankNo) (dbl : Bool) (s : State) : Out :=
  atomicOp (.cas lp d s1 bank dbl) lp d s1 bank dbl
    (fun s old v => if old = v then some (s.g lp (Reg.succ d)) else none) s

/-- LRSV: a load that sets the reservation on its line (R111, R114), obtained in M or E (R316); none is set in harbour
mode (R313). -/
def execLrsv (lp : LpId) (d s1 : Reg) (bank : BankNo) (dbl : Bool) (s : State) : Out :=
  runLp (.lrsv lp d s1 bank dbl) lp 0 (do
    let l ← formAtomic lp s1 bank dbl .read
    let n := atomicSize dbl
    let fi := finfoOf bank.val .read (sizeCode .read n) n 0 0 false
    let a := (l.headD (0, 0)).1
    let s ← get
    let c := s.cline (s.lp lp).twin.val (a / 256)
    let o := s.g lp s1
    if s.harbour ∨ c.st = .m ∨ c.st = .e then pure () else acquireLine lp bank o fi l
    let d0 ← readFormed lp bank o fi l
    modify (fun s => (if s.harbour then s else s.setLpv lp { s.lpv lp with resv := some (a / 256) }).setG lp d (leWord d0))
    nextPc lp 1) s

/-- STCOND (R111, R112, R314): checked like a store, stores only with the reservation held on its line, clears it; its
window closes with reason STCOND (R212). -/
def execStcond (lp : LpId) (d s1 : Reg) (bank : BankNo) (dbl : Bool) (s : State) : Out :=
  runLpSync (.stcond lp d s1 bank dbl) lp 2 6 (do
    let l ← formAtomic lp s1 bank dbl .write
    let n := atomicSize dbl
    let fi := finfoOf bank.val .write (sizeCode .write n) n 0 0 false
    let a := (l.headD (0, 0)).1
    let s ← get
    let held := decide ((s.lpv lp).resv = some (a / 256)) && !s.harbour
    let o := s.g lp s1
    if held then do
      acquireLine lp bank o fi l
      let s ← get
      storeFormed lp bank o fi l ((wordBytes (s.g lp d)).take n)
    else pure ()
    modify (fun s => ((s.setLpv lp { s.lpv lp with resv := none }).laneItem lp 2 [BitVec.ofNat 8 (b2n held)]).setG lp d (b2w held))
    nextPc lp 1
    pure id) s

/-! ## Resumable long instructions -/

/-- The bytes one step covers (R129). -/
def stepLen (len anchor : Word) : Nat := min len.toNat (4096 - anchor.toNat % 4096)

/-- A bank check alone, before any zone check (R145 items 12, 13). -/
def bankOnly (lp : LpId) (bank : BankNo) (o : Word) (n : Nat) (k : AKind) : Act Unit := do
  let s ← get
  match bankForm ((s.slip lp).b.get bank) o.toNat n k with
  | .error re => raiseExc (excOf 0x04 0 o (finfoOf bank.val k 7 n re 0 false))
  | .ok _ => pure ()

/-- The pieces with the index of their first byte in the range. -/
def indexPieces (i : Nat) : List (Nat × Nat) → List (Nat × Nat × Nat)
  | [] => []
  | (a, n) :: r => (a, n, i) :: indexPieces (i + n) r

/-- The addresses of a formed range, byte by byte. -/
def pieceBytes (l : List (Nat × Nat)) : List Nat := (l.map (fun p => (List.range p.2).map (p.1 + ·))).flatten

/-- The last byte before byte `i` of an indexed range that lies at address `a`. -/
def writtenAt (l : List (Nat × Nat × Nat)) (a i : Nat) : Option Nat :=
  l.foldl (fun best p =>
    if p.1 ≤ a ∧ a < p.1 + p.2.1 ∧ p.2.2 + (a - p.1) < i then some (p.2.2 + (a - p.1)) else best) none

/-- A byte as a byte-by-byte pass sees it: what the pass has written at its address, else its old value (R131). -/
def passByte (dst : List (Nat × Nat × Nat)) (out : Array Byte) (i a : Nat) (old : Byte) : Byte :=
  match writtenAt dst a i with
  | some j => out.getD j old
  | none => old

/-- A copy made byte by byte in ascending order (R131). -/
def moveBytes (dst : List (Nat × Nat × Nat)) : List (Nat × Byte) → Nat → Array Byte → Array Byte
  | [], _, out => out
  | (a, v) :: r, i, out => moveBytes dst r (i + 1) (out.push (passByte dst out i a v))

/-- A translation made byte by byte in ascending order (R131): the operand's bytes with their addresses, the table's
addresses and bytes. -/
def tranBytes (dst : List (Nat × Nat × Nat)) (ta : Array Nat) (tv : Array Byte) :
    List (Nat × Byte) → Nat → Array Byte → Array Byte
  | [], _, out => out
  | (a, v) :: r, i, out =>
    let x := (passByte dst out i a v).toNat
    tranBytes dst ta tv r (i + 1) (out.push (passByte dst out i (ta.getD x 0) (tv.getD x 0)))

/-- The first index at which two byte lists differ. -/
def firstDiff : List Byte → List Byte → Nat → Option Nat
  | a :: r, b :: q, i => if a = b then firstDiff r q (i + 1) else some i
  | _, _, _ => none

/-- One step's operand, checked and free of device accesses: its pieces (R129). -/
def stepOperand (lp : LpId) (bank : BankNo) (o : Word) (n : Nat) (k : AKind) : Act (List (Nat × Nat)) := do
  let s ← get
  liftExc (s.formAccess lp bank o n k 7)

/-- A long instruction's step `step`, with the length of 0 completing at once (R129); it answers how far the step went
and whether the instruction is done. -/
def longStep (i : Instr) (lp : LpId) (need : Nat) (s2 : Reg) (anchor : Reg) (offs : List Reg)
    (step : Nat → Act (Nat × Bool)) (s : State) : Out :=
  runLp i lp need (do
    let s ← get
    if s.g lp s2 = 0 then nextPc lp 1
    else do
      let (k, done) ← step (stepLen (s.g lp s2) (s.g lp anchor))
      modify (fun s =>
        let s := offs.foldl (fun s r => s.setG lp r (s.g lp r + BitVec.ofNat 64 k)) s
        s.setG lp s2 (s.g lp s2 - BitVec.ofNat 64 k))
      let s ← get
      if done ∨ s.g lp s2 = 0 then nextPc lp 1 else pure ()) s

/-- FINFO of a step's operand (R95). -/
def stepInfo (bank : BankNo) (k : AKind) (n : Nat) : Word := finfoOf bank.val k 7 n 0 0 false

/-- One step of MOVL (R128 to R131).  Where both operands of a step fail the same kind of check, Gd's is reported, here and in CMPL and
TRNL (log 51). -/
def execMovl (lp : LpId) (d s1 s2 : Reg) (p q : BankNo) (s : State) : Out :=
  longStep (.movl lp d s1 s2 p q) lp 64 s2 d [d, s1] (fun n => do
    let s ← get
    bankOnly lp p (s.g lp d) n .write
    bankOnly lp q (s.g lp s1) n .read
    let ld ← stepOperand lp p (s.g lp d) n .write
    let ls ← stepOperand lp q (s.g lp s1) n .read
    requireNoDevice lp p (stepInfo p .write n) ld
    requireNoDevice lp q (stepInfo q .read n) ls
    let src ← readFormed lp q (s.g lp s1) (stepInfo q .read n) ls
    let out := moveBytes (indexPieces 0 ld) ((pieceBytes ls).zip src) 0 #[]
    storeFormed lp p (s.g lp d) (stepInfo p .write n) ld out.toList
    pure (n, false)) s

/-- One step of CMPL (R128 to R131). -/
def execCmpl (lp : LpId) (d s1 s2 : Reg) (p q : BankNo) (s : State) : Out :=
  longStep (.cmpl lp d s1 s2 p q) lp 0 s2 d [d, s1] (fun n => do
    let s ← get
    bankOnly lp p (s.g lp d) n .read
    bankOnly lp q (s.g lp s1) n .read
    let ld ← stepOperand lp p (s.g lp d) n .read
    let ls ← stepOperand lp q (s.g lp s1) n .read
    requireNoDevice lp p (stepInfo p .read n) ld
    requireNoDevice lp q (stepInfo q .read n) ls
    let x ← readFormed lp p (s.g lp d) (stepInfo p .read n) ld
    let y ← readFormed lp q (s.g lp s1) (stepInfo q .read n) ls
    match firstDiff x y 0 with
    | some k => pure (k, true)
    | none => pure (n, false)) s

/-- One step of TRNL (R128 to R131). -/
def execTrnl (lp : LpId) (d s1 s2 : Reg) (p q : BankNo) (s : State) : Out :=
  longStep (.trnl lp d s1 s2 p q) lp 64 s2 d [d] (fun n => do
    let s ← get
    bankOnly lp p (s.g lp d) n .rmw
    bankOnly lp q (s.g lp s1) 256 .read
    let ld ← stepOperand lp p (s.g lp d) n .rmw
    let lt ← stepOperand lp q (s.g lp s1) 256 .read
    requireNoDevice lp p (stepInfo p .rmw n) ld
    requireNoDevice lp q (stepInfo q .read 256) lt
    let x ← readFormed lp p (s.g lp d) (stepInfo p .rmw n) ld
    let tb ← readFormed lp q (s.g lp s1) (stepInfo q .read 256) lt
    let out := tranBytes (indexPieces 0 ld) (pieceBytes lt).toArray tb.toArray ((pieceBytes ld).zip x) 0 #[]
    storeFormed lp p (s.g lp d) (stepInfo p .rmw n) ld out.toList
    pure (n, false)) s

/-- One step of CKSM (R128 to R131). -/
def execCksm (lp : LpId) (d s1 s2 : Reg) (p q : BankNo) (s : State) : Out :=
  longStep (.cksm lp d s1 s2 p q) lp 0 s2 s1 [s1] (fun n => do
    let s ← get
    let ls ← stepOperand lp q (s.g lp s1) n .read
    requireNoDevice lp q (stepInfo q .read n) ls
    let x ← readFormed lp q (s.g lp s1) (stepInfo q .read n) ls
    modify (fun s => s.setG lp d ((crc32cRaw ((s.g lp d).truncate 32) x).setWidth 64))
    pure (n, false)) s

end Sys2Proof.Machine
end

