-- ==== Sys2Proof/Machine/Maint.lean ====
section
/-! DEFINITION. The cache-maintenance instructions (R250 to R253) and the lock tags they place (R242 to R246). -/

namespace Sys2Proof.Machine

/-- The lines of a step with the index of their first byte in it, and the bytes from there on (R251). -/
def stepLines (l : List (Nat × Nat)) : List (Nat × Nat) := (indexPieces 0 l).map (fun p => (p.1 / 256, p.2.2))

/-- Whether any copy of a line here, or one the manifest names, is dirty. -/
def State.lineDirty (s : State) (ln : Nat) : Bool :=
  (s.holders ln).any (fun e => e.2.st.dirty) ||
    (match s.lineRef ln with | some r => r.own && (s.man ln r.port).dirty | none => false)

/-- The scratch attribute of the dirty copy of a line (R75, R326). -/
def State.lineScratch (s : State) (ln : Nat) : Bool := (s.holders ln).any (fun e => e.2.st.dirty && e.2.scratch)

/-- A Clean (R250, R256): every dirty copy in the deck is written home and stays, clean. -/
def State.cleanLine (s : State) (ln : Nat) : State :=
  match s.lineRef ln with
  | none => s
  | some r =>
    let d := (s.holders ln).any (fun e => e.2.st.dirty)
    let sc := s.lineScratch ln
    let (far, s) := s.askRemote r ln
    let s := (s.snoopRemote .clean r ln).snoopAll .clean 999 ln
    if d ∨ far then s.writeHome r sc else s

/-- An Inv (R250, R256): every dirty copy in the deck is written home, then every copy goes; the lock tags stay (R245). -/
def State.invLine (s : State) (ln : Nat) : State :=
  match s.lineRef ln with
  | none => s
  | some r =>
    let d := (s.holders ln).any (fun e => e.2.st.dirty)
    let sc := s.lineScratch ln
    let (far, s) := s.askRemote r ln
    let s := ((s.snoopRemote .inv r ln).snoopAll .inv 999 ln).loseResvOthers 999 ln
    if d ∨ far then s.writeHome r sc else s

/-- Whether the write of a dirty line would have to wait at its home: a transaction is open, or its port's park area is
full (R251, R259, R343). -/
def State.lineHeld (s : State) (ln : Nat) : Bool :=
  s.txnOpen ln || (s.lineDirty ln &&
    (match s.lineRef ln with
     | some r => r.own && decide (s.portState r.port ≠ 2 ∧ parkMax ≤ (s.nv.parks.get r.port []).length)
     | none => false))

/-- One step of CWB, CINV or CUNLOCK: checked as one read of its bytes, its effect once its window has matched (R251). -/
def maintStep (i : Instr) (lp : LpId) (lvl : Nat) (d s1 : Reg) (b : BankNo) (waits : Bool) (eff : State → Nat → State)
    (s : State) : Out :=
  runLpSync i lp 0 8 (do
    requireLevel lp lvl
    let s ← get
    if s.g lp s1 = 0 then do
      nextPc lp 1
      pure id
    else do
      let n := stepLen (s.g lp s1) (s.g lp d)
      let l ← stepOperand lp b (s.g lp d) n .read
      requireNoDevice lp b (stepInfo b .read n) l
      let lines := (stepLines l).map (·.1)
      if waits ∧ lines.any (fun ln => s.lineHeld ln) then throw .stall
      modify (fun s => (s.setG lp d (s.g lp d + BitVec.ofNat 64 n)).setG lp s1 (s.g lp s1 - BitVec.ofNat 64 n))
      let s ← get
      if s.g lp s1 = 0 then nextPc lp 1 else pure ()
      pure (fun s => lines.foldl eff s)) s

/-- One step of CWB (R250, R251). -/
def execCwb (lp : LpId) (d s1 : Reg) (b : BankNo) (s : State) : Out :=
  maintStep (.cwb lp d s1 b) lp 3 d s1 b true State.cleanLine s

/-- One step of CINV (R250, R251). -/
def execCinv (lp : LpId) (d s1 : Reg) (b : BankNo) (s : State) : Out :=
  maintStep (.cinv lp d s1 b) lp 2 d s1 b true State.invLine s

/-- The cache a selector names for an LP: its twin's L2, or its cluster's L3 slice (R250). -/
def State.cacheOf (s : State) (lp : LpId) (x : Bool) : Nat :=
  let t := (s.lp lp).twin.val
  if x then 64 + t / 4 else t

/-- A line's tag is dropped from a cache (R243): the line stays as an ordinary line, and as a locked way without a tag stays empty (R244),
it moves to an ordinary way (log 45). -/
def State.unlockLine (s : State) (agent ln : Nat) : State :=
  if ¬ s.locked agent ln then s
  else
    let c := s.cline agent ln
    let s := { s with live := { s.live with
      lockTags := s.live.lockTags.filter (fun e => !decide (e.1 = agent ∧ e.2.1 = ln)) } }
    if c.st = .i then s else ((s.setCline agent ln CLine.none).makeRoom agent ln).place agent ln c

/-- One step of CUNLOCK (R243, R250). -/
def execCunlock (lp : LpId) (d s1 : Reg) (b : BankNo) (x : Bool) (s : State) : Out :=
  maintStep (.cunlock lp d s1 b x) lp 2 d s1 b false (fun s ln => s.unlockLine (s.cacheOf lp x) ln) s

/-- The locked way that takes a line's tag: the highest-numbered one free in its set (R242, R252). -/
def State.freeWay (s : State) (agent ln : Nat) : Option Nat :=
  let used := s.live.lockTags.filterMap (fun e =>
    if e.1 = agent ∧ cacheSet agent e.2.1 = cacheSet agent ln then some e.2.2 else none)
  ((List.range (s.lockWays agent)).map (fun i => 15 - i)).find? (fun w => !used.contains w)

/-- The lines of a CLOCK step that receive a tag, up to the first that cannot (R252), with the tags then held. -/
def lockLines (agent : Nat) : State → List (Nat × Nat) → State × Option Nat
  | s, [] => (s, none)
  | s, (ln, i) :: r =>
    if s.locked agent ln then lockLines agent s r
    else match s.freeWay agent ln with
      | none => (s, some i)
      | some w =>
        lockLines agent { s with live := { s.live with lockTags := s.live.lockTags ++ [(agent, ln, w)] } } r

/-- The line of a tag is filled into its way, where the cache allocates (R243, R247); one the cache holds moves there. -/
def State.fillLocked (s : State) (agent ln : Nat) : State :=
  let c := s.cline agent ln
  if ¬ s.cacheOn agent then s
  else if c.st ≠ .i then s.setCline agent ln { c with way := s.wayFor agent ln }
  else if agent < 64 then s.touch agent ln false 0 256
  else match s.obtainShared agent ln allSectors with
    | .ok _ s => s
    | .bus s => s
    | .wait => s

/-- One step of CLOCK (R243, R250 to R252). -/
def execClock (lp : LpId) (d s1 : Reg) (b : BankNo) (x : Bool) (s : State) : Out :=
  runLpSync (.clock lp d s1 b x) lp 0 8 (do
    requireLevel lp 2
    let s ← get
    if s.g lp s1 = 0 then do
      nextPc lp 1
      pure id
    else do
      let n := stepLen (s.g lp s1) (s.g lp d)
      let l ← stepOperand lp b (s.g lp d) n .read
      requireNoDevice lp b (stepInfo b .read n) l
      let lines := stepLines l
      let agent := s.cacheOf lp x
      let k := ((lockLines agent s lines).2).getD n
      if s.cacheOn agent ∧ lines.any (fun e => decide (e.2 < k ∧ (s.cline agent e.1).st = .i) && s.txnOpen e.1) then throw .stall
      modify (fun s => (s.setG lp d (s.g lp d + BitVec.ofNat 64 k)).setG lp s1 (s.g lp s1 - BitVec.ofNat 64 k))
      let s ← get
      if k < n ∨ s.g lp s1 = 0 then nextPc lp 1 else pure ()
      pure (fun s =>
        let s := (lockLines agent s lines).1
        (lines.filter (fun e => decide (e.2 < k))).foldl (fun s e => s.fillLocked agent e.1) s)) s

/-- Whether a CTOUCH that is acted on brings its line in (R253): not where it is poisoned, as far as this module can tell. -/
def State.touchable (s : State) (ln : Nat) : Bool :=
  match s.lineRef ln with
  | none => false
  | some r => !s.linePoison r && (!r.own || s.cacheSupplies r ln || decide ((foundOf s.mem r.key r.dev).1 = .good))

/-- CTOUCH (R253): a hint that raises nothing; the module may drop it, a choice the model leaves free. -/
def execCtouch (lp : LpId) (d : Reg) (b : BankNo) (x : Bool) (s : State) : Out :=
  runLpSync (.ctouch lp d b x) lp 0 8 (do
    let s ← get
    nextPc lp 1
    match s.formAccess lp b (s.g lp d) 1 (if x then .write else .read) 0 with
    | .error _ => pure id
    | .ok l =>
      let a := (l.headD (0, 0)).1
      if s.pathOf ((s.slip lp).b.get b).dev (s.slip lp).level a ≠ .cached ∨ ¬ s.touchable (a / 256) then pure id
      else pure (fun s => if Config.freeBool s.free then s.tick1.touch (s.lp lp).twin.val (a / 256) x 0 256 else s.tick1)) s

/-- CZERO (R253): a write of 256 zero bytes, without a read of memory. -/
def execCzero (lp : LpId) (d : Reg) (b : BankNo) (s : State) : Out :=
  runLpSync (.czero lp d b) lp 4 8 (do
    let s ← get
    let o := s.g lp d
    let fi := stepInfo b .write 256
    require (decide (o.toNat % 256 = 0)) (excOf 0x03 0 o fi)
    let l ← stepOperand lp b o 256 .write
    requireNoDevice lp b fi l
    let a := (l.headD (0, 0)).1
    let bk := (s.slip lp).b.get b
    modify (fun s =>
      (s.gstore lp ⟨a, List.replicate 256 0, !bk.dur, (s.slip lp).level, true, fi⟩).item lp 0x10 0
        (storeItemWords a (List.replicate 256 0)))
    nextPc lp 1
    pure id) s

/-! ## COH registers -/

/-- The ordinary lines of a cache in its locked ways leave it (R244). -/
def State.clearLocked (s : State) (agent : Nat) : State :=
  (s.vol.caches.dir.filter (fun e => decide (e.1 % 128 = agent ∧ e.2.st ≠ .i ∧ 16 - s.lockWays agent ≤ e.2.way) &&
      !s.locked agent (e.1 / 128))).foldl
    (fun s e => if agent < 64 then s.evictL2 agent (e.1 / 128) else s.evictHome agent (e.1 / 128)) s

/-- A write of COH_L2_n or COH_L3_n by keel or host (R242, R244, R246 to R249): the enable fields keep their 0 in harbour mode,
LOCK_WAYS 5 to 7 stores 4, a lower LOCK_WAYS drops the tags of the ways that leave, a higher one empties the ways that come. -/
def State.cohWrite (s : State) (agent : Nat) (v : Word) : State :=
  let o := cohReg agent
  let en := if agent < 64 then 7 else 1
  let k := min 4 (bits v 6 4)
  let old := s.reg o
  let e : Word := if s.harbour then old &&& en else v &&& en
  let s := s.setReg o (e ||| field 6 4 k)
  { s with live := { s.live with
      lockTags := s.live.lockTags.filter (fun t => !decide (t.1 = agent ∧ t.2.2 < 16 - k)) } }.clearLocked agent

/-- The cache whose COH register lies at an offset of the window (R279). -/
def cohAgent (off : Nat) : Option Nat :=
  match arrIdx (offCoh + 0x100) 64 8 off with
  | some n => some n
  | none => (arrIdx (offCoh + 0x400) 16 8 off).map (· + 64)

/-- CACHE_ENABLE_WRITE (R247 to R249). -/
def execCacheEnableWrite (src : Src) (off : BitVec 32) (v : Word) (s : State) : Out :=
  .next (match cohAgent off.toNat with
    | some a => if s.srcMay src 1 then s.cohWrite a v else s
    | none => s)

/-- LOCK_WAYS_WRITE (R242, R246). -/
def execLockWaysWrite (src : Src) (off : BitVec 32) (v : Word) (s : State) : Out :=
  .next (match cohAgent off.toNat with
    | some a => if s.srcMay src 1 then s.cohWrite a v else s
    | none => s)

/-- Whether a cache holds a dirty line. -/
def State.cacheDirty (s : State) (agent : Nat) : Bool :=
  s.vol.caches.dir.any (fun e => decide (e.1 % 128 = agent) && e.2.st.dirty)

/-- DRAINED of a COH register (R247, R248): not enabled, and no dirty line held. -/
def State.cacheIsDrained (s : State) (agent : Nat) : Bool :=
  decide (s.reg (cohReg agent) &&& (if agent < 64 then 7 else 1) = 0) && !s.cacheDirty agent

/-- COH_L2_n or COH_L3_n as it reads (R281, R282). -/
def State.cohRead (s : State) (agent : Nat) : Word :=
  let tags := (s.live.lockTags.filter (fun e => decide (e.1 = agent))).length
  setBits (s.reg (cohReg agent)) 3 3 (b2n (s.cacheIsDrained agent)) ||| field 32 16 tags

/-- A cache in drain writes every dirty line back (R247); a writeback to a module out of the deck fails, is logged, and the line
goes (R277). -/
def State.drainCache (s : State) (agent : Nat) : State :=
  (s.vol.caches.dir.filter (fun e => decide (e.1 % 128 = agent) && e.2.st.dirty)).foldl
    (fun s e =>
      match s.lineRef (e.1 / 128) with
      | some r => (s.setCline agent (e.1 / 128) { e.2 with st := if e.2.st = .m then .e else .s }).writeHome r e.2.scratch
      | none => (s.setCline agent (e.1 / 128) CLine.none).report 0x150) s

/-- CACHE_DRAINED (R247): a cache that is not enabled has written its last dirty line back. -/
def execCacheDrained (agent : Fin 128) (s : State) : Out :=
  .next (if s.mainOn ∧ agent.val < 80 ∧ ¬ s.cacheOn agent.val then s.drainCache agent.val else s)

end Sys2Proof.Machine
end

