-- ==== Sys2Proof/Machine/Coherence.lean ====
section
/-! DEFINITION. The coherence protocol message by message: requests at a home (R255, R259 to R262), snoops (R256, R257,
R267), completions (R258), the manifest (R264 to R266).  The processors' own accesses (Cache.lean) are these steps taken
at once; a line with an open transaction makes them wait. -/

namespace Sys2Proof.Machine

/-- The snoop a request sends (R256). -/
def ReqKind.snoop : ReqKind → Snoop
  | .rds => .shared
  | .rdo => .own
  | .upg => .own
  | .rdoz => .own
  | .rdcur => .cur
  | .wrinvf => .invf
  | .wrinvp => .inv
  | .clean => .clean
  | .inv => .inv

/-- A request that leaves its requester with a copy (R255). -/
def ReqKind.holds : ReqKind → Bool
  | .rds => true
  | .rdo => true
  | .upg => true
  | .rdoz => true
  | _ => false

/-- A request that takes every other copy away, and with it the reservations on the line (R315). -/
def ReqKind.takes : ReqKind → Bool
  | .rds => false
  | .rdcur => false
  | .clean => false
  | _ => true

/-- The home agent of a port. -/
def State.home (s : State) (p : Nat) : Home := s.vol.caches.homes.get p Home.none

/-- Replaces the home agent of a port. -/
def State.setHome (s : State) (p : Nat) (h : Home) : State :=
  s.withCaches (fun c => { c with homes := c.homes.put p h Home.none })

/-- The modules a mask names, other than this one. -/
def State.modules (s : State) (mask : BitVec 8) : List Nat :=
  (List.range 8).filter (fun m => mask.getLsbD m && decide (m ≠ s.pwr.modid.val))

/-! ## The manifest's entries (R264, R265) -/

/-- The lines whose manifest entries lie in a line's set at its home, with their entries. -/
def State.manSetOf (s : State) (r : LineRef) (ln : Nat) : List (Nat × Man) :=
  s.vol.caches.manifest.filter (fun x => decide (manSet x.1 = manSet ln) &&
    (match s.lineRef x.1 with | some q => decide (q.port = r.port) | none => false))

/-- Whether a line's manifest entry is pinned (R265). -/
def State.pinned (s : State) (ln : Nat) : Bool := (s.txnOf ln).isSome

/-- Whether a line has no manifest entry and every way of its set is pinned, so that a new one has to wait (R265). -/
def State.manFull (s : State) (r : LineRef) (ln : Nat) : Bool :=
  decide ((s.man ln r.port).holders = 0) && decide (16 ≤ ((s.manSetOf r ln).filter (fun x => s.pinned x.1)).length)

/-- A manifest entry is evicted (R265, R315): the modules it names are snooped with SnpInv, dirty data are written to memory, the entry is
freed. -/
def State.manEvict (s : State) (v : Nat) : State :=
  match s.lineRef v with
  | none => s.setMan v Man.none
  | some r =>
    let (far, s) := s.askRemote r v
    let s := (s.setMan v Man.none).loseResvOthers 999 v
    if far then s.writeHome r false else s

/-- The way a new entry takes: the lowest-numbered free one of its set, else the pseudo-LRU one that is not pinned, whose entry goes
(R265). -/
def State.manWay (s : State) (r : LineRef) (ln : Nat) : Nat × State :=
  let l := s.manSetOf r ln
  match (List.range 16).find? (fun w => l.all (fun x => decide (x.2.way ≠ w))) with
  | some w => (w, s)
  | none =>
    let w := plruPick 4 (s.tree (208 + r.port) (manSet ln)) (fun w => l.any (fun x => decide (x.2.way = w) && !s.pinned x.1))
    match l.find? (fun x => decide (x.2.way = w)) with
    | some (v, _) => (w, s.manEvict v)
    | none => (w, s)

/-- A request of module `m` sets its bit in the line's manifest entry (R264). -/
def State.manAdd (s : State) (r : LineRef) (ln m : Nat) (dirty : Bool) : State :=
  let b : BitVec 8 := BitVec.ofNat 8 (2 ^ m)
  let e := s.man ln r.port
  let (w, s) := if e.holders = 0 then s.manWay r ln else (e.way, s)
  (s.setMan ln ⟨e.holders ||| b, e.dirty || dirty, w, e.wbk &&& ~~~ b⟩).useWay (208 + r.port) 4 (manSet ln) w

/-- A module's bit leaves a manifest entry, but that of the module whose open request holds the line (R264). -/
def State.manDrop (s : State) (r : LineRef) (t : Txn) (m : Nat) (clears : Bool) : State :=
  let b : BitVec 8 := BitVec.ofNat 8 (2 ^ m)
  let e := s.man t.req.line r.port
  let stays := decide (t.req.req / 128 = m) && t.req.kind.holds
  s.setMan t.req.line { e with holders := if clears ∧ ¬ stays then e.holders &&& ~~~ b else e.holders, wbk := e.wbk &&& ~~~ b }

/-! ## Requests at a home -/

/-- Opens a transaction (R262): who is snooped, what the request does to reservations (R315), and a remote holder's manifest entry, which
is pinned from now on (R264, R265, R269).  An Upg whose requester has lost its copy becomes an RdO (R258, R271). -/
def State.openTxn (s : State) (r : LineRef) (q : Req) : State :=
  let m := q.req / 128
  let here := decide (m = s.pwr.modid.val)
  let me := if here then q.req % 128 else 999
  let e := s.man q.line r.port
  let wait := ((s.holders q.line).map (·.1)).filter (fun a => decide (a ≠ me)) ++ (s.modules e.holders).map (1024 + ·)
  let lost := if here then decide ((s.cline me q.line).st = .i) else !e.holders.getLsbD m
  let q := if q.kind = .upg ∧ lost then { q with kind := .rdo } else q
  let s := if q.kind.takes then s.loseResvOthers me q.line else s
  let s := if ¬ here ∧ q.kind.holds then s.manAdd r q.line m (decide (q.kind ≠ .rds)) else s
  let h := s.home r.port
  let s := s.setHome r.port { h with last := q.req, tickets := h.tickets.erase (q.req, q.line) }
  s.withCaches (fun c => { c with txns := c.txns ++ [⟨q, wait, [], false, false, false, false, c.epoch⟩] })

/-- Whether a request can open: its line has no open transaction, and a manifest entry it needs has a way (R259, R265). -/
def State.mayOpen (s : State) (r : LineRef) (q : Req) : Bool :=
  (s.txnOf q.line).isNone &&
    !(decide (q.req / 128 ≠ s.pwr.modid.val) && q.kind.holds && s.manFull r q.line)

/-- A request reaches its home (R259 to R261): it opens, waits in the queue, or is answered RETRY with a ticket when the queue has no entry
for it.  From the trigger of a landing on a home answers another module's with a bus error (R364). -/
def State.request (s : State) (q : Req) : State :=
  match s.ownLine q.line with
  | none => s
  | some r =>
    if ¬ s.cohOn ∨ (q.req / 128 ≠ s.pwr.modid.val ∧ ¬ s.mainOn) ∨ 107 ≤ q.req % 128 ∨ ¬ s.inDeck (q.req / 128) ∨ (q.kind.holds ∧ 80 ≤ q.req % 128) then s
    else if s.mayOpen r q then s.openTxn r q
    else
      let h := s.home r.port
      let tk := (q.req, q.line)
      let room := if h.tickets = [] ∨ h.tickets.head? = some tk then 16 else 15
      if h.queue.length < room then s.setHome r.port { h with queue := h.queue ++ [q], tickets := h.tickets.erase tk }
      else
        let s := s.setHome r.port { h with tickets := if h.tickets.contains tk then h.tickets else h.tickets ++ [tk] }
        s.withCaches (fun c => { c with grants := c.grants ++ [⟨q, .i, true, false, none⟩] })

/-- The coherent value of a line is what memory holds. -/
def State.curFromMedia (s : State) (key : Nat) : State :=
  { s with mem := { s.mem with cur := s.mem.cur.setBytes (key * 256) (s.mem.media.bytes (key * 256) 256),
                               poison := s.mem.poison.put key (s.mem.mpoison.get key false) false } }

/-- A line is marked poisoned (R336): every copy goes, dirty data are discarded, and the home writes the inverted check of
its memory, or parks a poisoned line of zeros while the port is fenced. -/
def State.poisonLine (s : State) (r : LineRef) (ln : Nat) : State :=
  let s := ((s.snoopRemote .invf r ln).snoopAll .invf 999 ln).loseResvOthers 999 ln
  if s.portState r.port = 2 then
    (s.mediaWrite r.key r.dev (s.mem.media.bytes (r.key * 256) 256) true).curFromMedia r.key
  else
    let z : List Byte := List.replicate 256 0
    let s := { s with mem := { s.mem with cur := s.mem.cur.setBytes (r.key * 256) z,
                                          poison := s.mem.poison.put r.key true false } }
    s.park r.port ⟨r.dev / 256, z, ~~~ tileCheck r.dev z, false, true⟩

/-- What waits at a home goes on when a transaction has closed: lines to be marked poisoned (R336), then the queued requests that can
open, in arrival order (R259, R265). -/
def State.openQueued (s : State) (p : Nat) : State :=
  let s := (s.home p).poisons.foldl (fun s ln =>
    match s.ownLine ln with
    | none => s
    | some r =>
      if (s.txnOf ln).isSome then s
      else
        let h := s.home p
        (s.setHome p { h with poisons := h.poisons.erase ln }).poisonLine r ln) s
  (s.home p).queue.foldl (fun s q =>
    match s.ownLine q.line with
    | none => s
    | some r =>
      if ¬ s.mayOpen r q then s
      else
        let h := s.home p
        (s.setHome p { h with queue := h.queue.erase q }).openTxn r q) s

/-- A request of a kind without data. -/
def State.requestOf (s : State) (k : ReqKind) (req : BitVec 10) (line : BitVec 44) : State :=
  s.request ⟨k, req.toNat, line.toNat, 0, []⟩

/-- RDS (R255). -/
def execRds (req : BitVec 10) (line : BitVec 44) (s : State) : Out := .next (s.requestOf .rds req line)
/-- RDO (R255). -/
def execRdo (req : BitVec 10) (line : BitVec 44) (s : State) : Out := .next (s.requestOf .rdo req line)
/-- UPG (R255, R258). -/
def execUpg (req : BitVec 10) (line : BitVec 44) (s : State) : Out := .next (s.requestOf .upg req line)
/-- RDOZ (R255). -/
def execRdoz (req : BitVec 10) (line : BitVec 44) (s : State) : Out := .next (s.requestOf .rdoz req line)
/-- RDCUR (R255). -/
def execRdcur (req : BitVec 10) (line : BitVec 44) (s : State) : Out := .next (s.requestOf .rdcur req line)
/-- CLEAN (R255). -/
def execClean (req : BitVec 10) (line : BitVec 44) (s : State) : Out := .next (s.requestOf .clean req line)
/-- INV (R255). -/
def execInv (req : BitVec 10) (line : BitVec 44) (s : State) : Out := .next (s.requestOf .inv req line)

/-- WRINVF: a full line of data (R255). -/
def execWrinvf (req : BitVec 10) (line : BitVec 44) (data : List Byte) (s : State) : Out :=
  .next (if data.length = 256 then s.request ⟨.wrinvf, req.toNat, line.toNat, 0, data⟩ else s)

/-- WRINVP: part of a line (R255). -/
def execWrinvp (req : BitVec 10) (line : BitVec 44) (off : BitVec 8) (data : List Byte) (s : State) : Out :=
  .next (if 0 < data.length ∧ off.toNat + data.length ≤ 256 ∧ data.length < 256 then
      s.request ⟨.wrinvp, req.toNat, line.toNat, off.toNat, data⟩ else s)

/-! ## Writebacks -/

/-- The home takes a line's data from a WBK it accepts while the line's transaction is open (R257, R270). -/
def State.wbkData (s : State) (ln : Nat) : State :=
  match s.txnOf ln with
  | some t => s.setTxn { t with supplied := true }
  | none => s

/-- A WBK of an agent of this module (R239, R257, R260, R270): a twin's line goes to its cluster's L3 slice while that is enabled, and no
WBK is sent; one to a module out of the deck fails (R277). -/
def State.wbkHere (s : State) (a ln : Nat) : State :=
  let c := s.cline a ln
  if ¬ c.st.dirty ∨ c.wbk ∨ 80 ≤ a ∨ (a < 64 ∧ s.cacheOn (64 + a / 4)) then s
  else
    let s := if 64 ≤ a then s.countCl (a - 64) 0x04 1 else (s.lpsOf a).foldl (fun s n => s.loseResv n ln) s
    match s.lineRef ln with
    | none => s.evictHome a ln
    | some r => ((s.setCline a ln { CLine.none with wbk := true }).writeHome r c.scratch).wbkData ln

/-- A WBK of module `m` reaches its home here (R257, R264, R270): its data are written; a module that answered WB_PENDING holds no copy. -/
def State.wbkThere (s : State) (r : LineRef) (ln m : Nat) (data : List Byte) (poison : Bool) : State :=
  let mem := { s.mem with cur := s.mem.cur.setBytes (r.key * 256) data, poison := s.mem.poison.put r.key poison false }
  let s := (({ s with mem := mem }).writeHome r false).wbkData ln
  let e := s.man ln r.port
  let s := s.setMan ln { e with wbk := e.wbk ||| BitVec.ofNat 8 (2 ^ m) }
  match s.txnOf ln with
  | none => s
  | some t => if t.wbp.contains m then (s.setTxn { t with wbp := t.wbp.filter (fun w => decide (w ≠ m)) }).manDrop r t m true else s

/-- WBK: a dirty line of a cache of this module leaves for its home, or one of another module arrives; it is always
accepted (R257, R260, R270). -/
def execWbk (req : BitVec 10) (line : BitVec 44) (data : List Byte) (poison : Bool) (s : State) : Out :=
  .next (
    let ln := line.toNat
    let m := req.toNat / 128
    if m = s.pwr.modid.val then (if s.cohOn then s.wbkHere (req.toNat % 128) ln else s)
    else if ¬ s.mainOn ∧ ¬ (s.pwr.phase = .landing ∧ ¬ s.pwr.land.recallClosed) then s
    else match s.ownLine ln with
    | none => s
    | some r => if ¬ s.inDeck m ∨ data.length ≠ 256 then s else s.wbkThere r ln m data poison)

/-- WBK_ACK: the agent leaves WB_PENDING (R257). -/
def execWbkAck (agent : Fin 128) (line : BitVec 44) (s : State) : Out :=
  .next (
    let c := s.cline agent.val line.toNat
    if c.wbk then s.setCline agent.val line.toNat { c with wbk := false } else s)

/-! ## Snoops -/

/-- A snoop reaches an agent: it waits under a mooring (R267), else it takes effect. -/
def State.snoopAt (s : State) (k : Snoop) (agent ln : Nat) : State :=
  if (s.cline agent ln).moored then s.withCaches (fun x => { x with heldSnoops := x.heldSnoops ++ [(agent, ln, k)] })
  else s.takeSnoop k agent ln

/-- A snoop reaches an agent of this module.  One for a line homed here belongs to the line's open transaction. -/
def State.snoopIn (s : State) (k : Snoop) (agent : Fin 128) (line : BitVec 44) : State :=
  let ln := line.toNat
  let a := agent.val
  if ¬ s.cohOn ∨ 80 ≤ a ∨ s.vol.caches.heldSnoops.any (fun e => decide (e.1 = a ∧ e.2.1 = ln)) then s
  else match s.lineRef ln with
  | none => s
  | some r =>
    if ¬ r.own then s.snoopAt k a ln
    else match s.txnOf ln with
    | none => s
    | some t =>
      if t.req.kind.snoop = k ∧ t.wait.contains a ∧ ¬ s.vol.caches.resps.any (fun e => decide (e.1 = a ∧ e.2.1 = ln))
      then s.snoopAt k a ln else s

/-- SNPSHARED (R256). -/
def execSnpshared (agent : Fin 128) (line : BitVec 44) (s : State) : Out := .next (s.snoopIn .shared agent line)
/-- SNPOWN (R256). -/
def execSnpown (agent : Fin 128) (line : BitVec 44) (s : State) : Out := .next (s.snoopIn .own agent line)
/-- SNPCUR (R256). -/
def execSnpcur (agent : Fin 128) (line : BitVec 44) (s : State) : Out := .next (s.snoopIn .cur agent line)
/-- SNPINV (R256). -/
def execSnpinv (agent : Fin 128) (line : BitVec 44) (s : State) : Out := .next (s.snoopIn .inv agent line)
/-- SNPINVF (R256). -/
def execSnpinvf (agent : Fin 128) (line : BitVec 44) (s : State) : Out := .next (s.snoopIn .invf agent line)
/-- SNPCLEAN (R256). -/
def execSnpclean (agent : Fin 128) (line : BitVec 44) (s : State) : Out := .next (s.snoopIn .clean agent line)

/-- What a response says, once it has reached the home (R262). -/
def Txn.heard (t : Txn) (who : Nat) (r : Resp) : Txn :=
  let t := { t with wait := t.wait.filter (fun w => decide (w ≠ who)) }
  match r with
  | .miss => t
  | .hit => { t with hit := true }
  | .dataClean => { t with hit := true, supplied := true }
  | .dataDirty => { t with hit := true, supplied := true, dirty := true }
  | .wbPending => { t with supplied := true }

/-- SNOOP_RESPONSE: an agent's answer reaches the home (R256, R262, R264).  An agent of this module answers what its
snoop made it answer; another module's answer, with its data, comes with the command; one that answers WB_PENDING is waited for until
its WBK has come. -/
def execSnoopResponse (agent : BitVec 10) (line : BitVec 44) (resp : Resp) (data : List Byte) (s : State) : Out :=
  .next (
    let ln := line.toNat
    let m := agent.toNat / 128
    let a := agent.toNat % 128
    match s.ownLine ln, s.txnOf ln with
    | some r, some t =>
      if m = s.pwr.modid.val then
        match s.vol.caches.resps.find? (fun e => decide (e.1 = a ∧ e.2.1 = ln)) with
        | none => s
        | some (_, _, x) =>
          (s.withCaches (fun c => { c with resps := c.resps.filter (fun e => !decide (e.1 = a ∧ e.2.1 = ln)) })).setTxn
            (t.heard a x)
      else if ¬ t.wait.contains (1024 + m) then s
      else if resp = .wbPending then
        if (s.man ln r.port).wbk.getLsbD m then (s.setTxn (t.heard (1024 + m) .wbPending)).manDrop r t m true
        else s.setTxn { t with wait := t.wait.filter (fun w => decide (w ≠ 1024 + m)), wbp := t.wbp ++ [m] }
      else
        let k := t.req.kind.snoop
        let s := s.manDrop r t m (decide (resp = .miss ∨ k = .own ∨ k = .inv ∨ k = .invf))
        let e := s.man ln r.port
        let s := if resp = .dataDirty ∧ k = .clean then s.setMan ln { e with dirty := false } else s
        let s := if resp = .dataDirty ∧ data.length = 256 ∧ t.req.kind ≠ .rdoz then
            { s with mem := { s.mem with cur := s.mem.cur.setBytes (r.key * 256) data } }
          else s
        s.setTxn (t.heard (1024 + m) resp)
    | _, _ => s)

/-! ## Completions -/

/-- A requester of this module takes its granted state (R258); its own waiting access moors an M or E line (R267). -/
def State.takeGrant (s : State) (g : Grant) : State :=
  let a := g.req.req % 128
  let ln := g.req.line
  if g.req.req / 128 ≠ s.pwr.modid.val ∨ g.st = .i ∨ 80 ≤ a then s
  else
    let s := s.makeRoom a ln
    let c := s.cline a ln
    let moor := decide (bits (s.reg offCoh) 7 0 ≠ 0 ∧ (g.st = .m ∨ g.st = .e))
    let z := decide (g.req.kind = .rdoz)
    let s := match s.lineRef ln with
      | some r => if z then { s with mem := { s.mem with
          cur := s.mem.cur.setBytes (r.key * 256) (List.replicate 256 0), poison := s.mem.poison.put r.key false false } } else s
      | none => s
    let c := match g.dirty with
      | some (sc, ep) => { c with scratch := sc, epoch := ep }
      | none => if c.st.dirty then c else { c with epoch := s.vol.caches.epoch }
    s.place a ln { c with st := g.st, valid := allSectors, moored := moor }

/-- The state a closing transaction grants (R255, R262). -/
def Txn.granted (t : Txn) : CSt :=
  match t.req.kind with
  | .rds => if t.hit then .s else .e
  | .rdo => .m
  | .upg => .m
  | .rdoz => .m
  | _ => .i

/-- The memory effect of a closing transaction at its home (R255, R262, R268, R334): the line's data where no agent
supplied them, and the write a dirty answer or the request itself brings.  `none`: a bus error (R341). -/
def State.serve (s : State) (r : LineRef) (t : Txn) : Option State :=
  let ln := t.req.line
  let reads : Bool := match t.req.kind with
    | .rds => !t.supplied
    | .rdo => !t.supplied
    | .rdcur => !t.supplied
    | .wrinvp => !t.supplied
    | _ => false
  if reads ∧ s.portState r.port ≠ 2 then none
  else if t.req.kind = .wrinvp ∧ s.portState r.port ≠ 2 then none
  else
    let s := if reads then (s.readHome r ln false).2 else s
    match t.req.kind with
    | .wrinvf =>
      some (({ s with mem := { s.mem with cur := s.mem.cur.setBytes (r.key * 256) t.req.data,
                                          poison := s.mem.poison.put r.key false false } } : State).writeHome r false)
    | .wrinvp =>
      some (({ s with mem := { s.mem with cur := s.mem.cur.setBytes (r.key * 256 + t.req.off) t.req.data } } : State).writeHome r t.scratch)
    | .clean => some (if t.dirty then s.writeHome r t.scratch else s)
    | .inv => some (if t.dirty then s.writeHome r t.scratch else s)
    | _ => some s

/-- HOME_COMPLETION: every snooped agent has answered and the transaction closes (R258, R262); what waited for it goes on (R259). -/
def execHomeCompletion (req : BitVec 10) (line : BitVec 44) (s : State) : Out :=
  .next (
    let ln := line.toNat
    match s.ownLine ln, s.txnOf ln with
    | some r, some t =>
      let m := req.toNat / 128
      let remote := decide (m ≠ s.pwr.modid.val)
      if t.req.req ≠ req.toNat ∨ t.wait ≠ [] ∨ t.wbp ≠ [] then s
      else
        let close (s : State) : State := s.withCaches (fun c => { c with txns := c.txns.filter (fun u => decide (u.req.line ≠ ln)) })
        match s.serve r t with
        | none => ((close s).openQueued r.port).wakeWaiters
        | some s =>
          let st := t.granted
          let s := if remote ∧ t.req.kind.holds ∧ st ≠ .s then s.setMan ln { s.man ln r.port with dirty := true } else s
          let data : Bool := match t.req.kind with
            | .rds => true
            | .rdo => true
            | .rdcur => true
            | _ => false
          let g : Grant := ⟨t.req, st, false, data, if t.dirty ∧ st = .m then some (t.scratch, t.epoch) else none⟩
          let s := close s
          let s := if data then s.withCaches (fun c => { c with grants := c.grants ++ [g] }) else s.takeGrant g
          (s.openQueued r.port).wakeWaiters
    | _, _ => s)

/-- The oldest completion of one kind on its way to a requester for a line. -/
def State.grantFor (s : State) (req ln : Nat) (retry : Bool) : Option Grant :=
  s.vol.caches.grants.find? (fun g => decide (g.req.req = req ∧ g.req.line = ln) && (g.retry == retry))

/-- Drops a completion that has arrived. -/
def State.dropGrant (s : State) (g : Grant) : State := s.withCaches (fun c => { c with grants := c.grants.erase g })

/-- DAT: the data reach the requester, which completes its request (R258). -/
def execDat (req : BitVec 10) (line : BitVec 44) (s : State) : Out :=
  .next (match s.grantFor req.toNat line.toNat false with
    | none => s
    | some g => ((s.dropGrant g).takeGrant g).wakeWaiters)

/-- REQUEST_RESEND: a request answered RETRY is sent again (R261). -/
def execRequestResend (req : BitVec 10) (line : BitVec 44) (s : State) : Out :=
  .next (match s.grantFor req.toNat line.toNat true with
    | none => s
    | some g => (s.dropGrant g).request g.req)

/-- TICKET_EXPIRY: the oldest ticket of a home is no longer waited for (R261). -/
def execTicketExpiry (port : Fin 16) (s : State) : Out :=
  .next (if (s.home port.val).tickets = [] then s
    else s.setHome port.val { s.home port.val with tickets := (s.home port.val).tickets.drop 1 })

/-- MOORING_END: the mooring of a line ends and a snoop it held takes effect (R267). -/
def execMooringEnd (agent : Fin 128) (line : BitVec 44) (s : State) : Out := .next (s.endMooring agent.val line.toNat)

/-! ## Manifest errors -/

/-- MANIFEST_ERROR: a set is taken as held by every module until it is rebuilt (R266). -/
def execManifestError (port : Fin 16) (set : BitVec 17) (s : State) : Out :=
  .next (if ¬ s.mainOn ∨ s.vol.caches.manBad.contains (port.val, set.toNat) then s
    else (s.withCaches (fun c => { c with manBad := c.manBad ++ [(port.val, set.toNat)] })).report (0x150 + port.val))

/-- MANIFEST_REBUILD_DONE: the set is cleared and COH_HOME_n.MAN_ERROR set (R266). -/
def execManifestRebuildDone (port : Fin 16) (set : BitVec 17) (s : State) : Out :=
  .next (if ¬ s.vol.caches.manBad.contains (port.val, set.toNat) then s
    else
      let s := s.withCaches (fun c => { c with
        manBad := c.manBad.filter (fun e => decide (e ≠ (port.val, set.toNat)))
        manifest := c.manifest.filter (fun x => !(decide (manSet x.1 = set.toNat) &&
          (match s.lineRef x.1 with | some q => decide (q.port = port.val) | none => false))) })
      s.setRegF (offCoh + 0x500 + 8 * port.val) 48 48 1)

/-- COH_HOME_n as it reads (R283). -/
def State.cohHomeRead (s : State) (p : Nat) : Word :=
  let used := s.vol.caches.manifest.filter (fun x =>
    match s.lineRef x.1 with | some q => decide (q.port = p) | none => false)
  s.reg (offCoh + 0x500 + 8 * p) ||| field 4 0 (s.home p).queue.length ||| field 37 16 used.length |||
    field 47 38 ((used.filter (fun x => (s.txnOf x.1).isSome)).length)

/-- COH_CTL as it is written (R280): KO fields. -/
def State.cohCtlWrite (s : State) (v : Word) : State := s.setReg offCoh (v &&& msk 12 0)

end Sys2Proof.Machine
end

