-- ==== Sys2Proof/Machine/Ports.lean ====
section
/-! DEFINITION. The memory ports (R318 to R358): admission and identity (R320, R321, R664), fencing, parking and replay
(R340 to R345), the tile checks as they come back from an expander (R331 to R339), the dirty-age sweepers (R328 to R330)
and the scrub (R339). -/

namespace Sys2Proof.Machine

/-! ## MOD_PRESENT -/

/-- A bit of MOD_PRESENT follows its unit; a change sets LINK_CHANGE (R40, R42). -/
def State.present (s : State) (b : Nat) (v : Bool) : State :=
  if bit (s.reg 0x10) b = v then s else (s.setRegF 0x10 b b (b2n v)).modEvent 3

/-! ## PERST -/

/-- Every PCIE_PERST_N and CXL_PERST_N line is asserted (R650). -/
def State.assertPerst (s : State) : State := { s with pwr := { s.pwr with perstPcie := 0xFFFF, perstCxl := 0xFFFF } }

/-- CXL_PERST_N of a memory port: asserted while the port is refused, released when its link begins training (R650). -/
def State.setPerstCxl (s : State) (p : Nat) (v : Bool) : State :=
  let m := BitVec.ofNat 16 (2 ^ p)
  { s with pwr := { s.pwr with perstCxl := if v then s.pwr.perstCxl ||| m else s.pwr.perstCxl &&& ~~~ m } }

/-- PCIE_PERST_N of a PCIe link: released when the link begins training, asserted while it is UNUSED (R650). -/
def State.setPerstPcie (s : State) (l : Nat) (v : Bool) : State :=
  let m := BitVec.ofNat 16 (2 ^ l)
  { s with pwr := { s.pwr with perstPcie := if v then s.pwr.perstPcie ||| m else s.pwr.perstPcie &&& ~~~ m } }

/-- A port is refused at a start with a code of REFUSE; its PERST line is asserted (R320, R650). -/
def State.refusePort (s : State) (p code : Nat) : State :=
  ((s.setRegF (offPm p) 2 0 4).setRegF (offPm p) 6 4 code).setPerstCxl p true

/-! ## Capacity and admission -/

/-- The planned capacity P of an expander of `cap` bytes (R322). -/
def plannedCap (cap : Nat) : Nat := min cap 0x10000000000 / 0x4000000 * 0x4000000

/-- C, the end of the data lines of a port with planned capacity P (R322). -/
def dataEnd (p : Nat) : Nat := p - p / 64

/-- The planned capacity recorded for a port, 0 where none is (R376, R664). -/
def State.recordedCap (s : State) (p : Nat) : Nat := ((s.nv.cfg.ports.get p none).map (·.2)).getD 0

/-- The first failing test of R320, as REFUSE numbers it; 0 where every test passes.  `ident` says that the identity check
of R664 applies, `rec` what is recorded for the port. -/
def refuseCode (e : Expander) (ident : Bool) (rec : Option (Word × Nat)) : Nat :=
  if (e.speed ≠ 64 ∧ e.speed ≠ 32) ∨ (e.lanes ≠ 8 ∧ e.lanes ≠ 4) then 6
  else if ¬ e.kindOk then 1
  else if ¬ e.poisonOk then 4
  else if ¬ e.identOk ∨ e.capacity = 0 then 2
  else if ¬ e.gpfOk then 3
  else if ident ∧ rec ≠ some (e.serial, plannedCap e.capacity) then 5
  else 0

/-- What an admission reads of the expander (R346, R349 to R352, R358). -/
def State.portAdmitted (s : State) (p : Nat) (e : Expander) : State :=
  let cap := plannedCap e.capacity
  let o := offPm p
  let dirty : Bool := match s.nv.cfg.dsc.get p none with
    | some d => decide (d < e.dsc)
    | none => false
  let s := s.setRegF o 2 0 2
  let s := ((s.setRegF o 6 4 0).setRegF o 8 8 (b2n (decide (e.speed = 32)))).setRegF o 9 9 (b2n (decide (e.lanes = 4)))
  let s := s.setRegF o 10 10 (b2n dirty)
  let s := s.setRegF (o + 0x10) 15 0 (min (e.capacity / gib) 0xFFFF)
  let s := s.setRegF (o + 0x10) 25 16 (dataEnd cap / gib)
  let s := (s.setReg (o + 0x18) e.serial).setRegF (o + 0x48) 31 0 e.dsc.toNat
  let s := s.withCfg (fun c => { c with
    ports := c.ports.put p (some (e.serial, cap)) none, dsc := c.dsc.put p (some e.dsc) none })
  let s := s.present p true
  if dirty then s.pmEvent p 5 else s

/-! ## Parked lines -/

/-- Whether no cache of the deck holds a line of this module dirty. -/
def State.cleanInDeck (s : State) (r : LineRef) (ln : Nat) : Bool :=
  !((s.holders ln).any (fun e => e.2.st.dirty)) && !(s.man ln r.port).dirty

/-- The line of a port's device address, of which this module is the home. -/
def portLine (p dev : Nat) : LineRef := ⟨p * 2 ^ 32 + dev, true, p, dev * 256⟩

/-- A parked or held line is written to the expander: a check that fails makes it poisoned (R344). -/
def State.replayOne (s : State) (p : Nat) (w : Park) : State :=
  let r := portLine p w.dev
  let good := decide (w.check = tileCheck r.dev w.data)
  let s := (s.countPm p 0x03 1).mediaWrite r.key r.dev w.data (!good)
  if s.cleanInDeck r (absLine s.live.sets s.pwr.modid.val p r.dev) then s.curFromMedia r.key else s

/-- Every line of a port's check cache reaches the expander (R337). -/
def State.flushChecks (s : State) (p : Nat) : State :=
  { s with mem := { s.mem with ckOld := s.mem.ckOld.filter (fun e => decide (e.1 / 2 ^ 32 ≠ p)),
                               ckAge := s.mem.ckAge.filter (fun e => decide (e.1 / 2 ^ 32 ≠ p)) } }

/-- The park area is replayed in park order, the check cache written back, then the held writes; the area is empty
(R343, R344). -/
def State.replayPark (s : State) (p : Nat) : State :=
  let s := ((s.nv.parks.get p []).foldl (fun s w => s.replayOne p w) s).flushChecks p
  let s := (s.vol.held.get p []).foldl (fun s w => s.replayOne p w) s
  let s := { s with nv := { s.nv with parks := s.nv.parks.put p [] [] }, vol := { s.vol with held := s.vol.held.put p [] [], heldFor := s.vol.heldFor.filter (fun e => decide (e.2 ≠ p)) } }
  s.setRegF (offPm p + 0x40) 16 0 0

/-- An expander is admitted or refused (R320, R344, R664): with the code of the first failing test. -/
def State.admitPort (s : State) (p : Nat) (e : Expander) (ident : Bool) : Nat × State :=
  let code := refuseCode e ident (s.nv.cfg.ports.get p none)
  if code ≠ 0 then (code, s) else (0, (s.portAdmitted p e).replayPark p)

/-- PM_LINK_TRAINED (R320, R664): at a start, a training port admits its expander or refuses it. -/
def execPmLinkTrained (port : Fin 16) (exp : Expander) (s : State) : Out :=
  .next (
    let p := port.val
    if s.pwr.phase ≠ .training ∨ s.portState p ≠ 1 then s
    else
      let ident := s.pwr.resume || decide (s.nv.parks.get p [] ≠ [])
      match s.admitPort p exp ident with
      | (0, s) => s
      | (code, s) => s.refusePort p code)

/-- PM_TRAIN_TIMEOUT (R320): the port is refused. -/
def execPmTrainTimeout (port : Fin 16) (s : State) : Out :=
  .next (if s.pwr.phase ≠ .training ∨ s.portState port.val ≠ 1 then s else s.refusePort port.val 7)

/-! ## Fencing -/

/-- A port is fenced (R340, R349, R354). -/
def State.fencePort (s : State) (p : Nat) : State :=
  let o := offPm p
  let s := s.setRegF o 2 0 3
  let s := s.setRegF o 31 16 (min (s.regF o 31 16 + 1) 0xFFFF)
  ((s.setRegF (o + 0x28) 2 2 1).present p false).modEvent 1

/-- A fenced port's link has trained again (R344): admitted, or still fenced with its refusal. -/
def State.readmitPort (s : State) (p : Nat) (e : Expander) : Bool × State :=
  match s.admitPort p e true with
  | (0, s) => (true, (s.setRegF (offPm p + 0x28) 3 3 1).modEvent 2)
  | (code, s) => (false, s.setRegF (offPm p) 6 4 code)

/-- PM_LINK_DOWN (R340): a link down or an uncorrectable link error is reported. -/
def execPmLinkDown (port : Fin 16) (s : State) : Out :=
  .next (if s.mainOn ∧ (s.portState port.val = 2 ∨ s.portState port.val = 3) then s.report (0x160 + port.val) else s)

/-- PM_REQUEST_TIMEOUT (R340, R347). -/
def execPmRequestTimeout (port : Fin 16) (s : State) : Out :=
  .next (if s.mainOn ∧ s.portState port.val = 2 then s.report (0x170 + port.val) else s)

/-- MEDIA_EVENT_RECORD (R319, R340, R354): a fatal record goes to the class that fences. -/
def execMediaEventRecord (port : Fin 16) (fatal : Bool) (s : State) : Out :=
  .next (if ¬ s.mainOn ∨ s.portState port.val ≠ 2 then s
    else if fatal then (s.setRegF (offPm port.val + 0x28) 5 5 1).report (0x1A0 + port.val)
    else s.pmEvent port.val 5)

/-! ## Reads and writes at the expander -/

/-- The home verifies a line it has read while a cache may supply it (R333, R335); no cache serves the scrub, which writes no cached data
back (R339). -/
def State.verify (s : State) (r : LineRef) (ln : Nat) (scrub : Bool) : State :=
  if s.cacheSupplies r ln then
    match foundOf s.mem r.key r.dev with
    | (.mismatch, _) =>
      let t := tileCheck r.dev (s.mem.media.bytes (r.key * 256) 256)
      let s := { s with mem := { s.mem with checks := s.mem.checks.put r.key (some (~~~ t)) none } }
      let s := (s.pmErr r.port ln (if scrub then 3 else 1)).pmEvent r.port 0
      if ¬ scrub ∧ s.cleanInDeck r ln then s.mediaWrite r.key r.dev (s.lineBytes r.key) false else s
    | (.poisoned, k) =>
      (s.pmErr r.port ln k).pmEvent r.port 1
    | _ => s
  else (s.readHome r ln scrub).2

/-- The 64 data lines from device line `first` on lose the checks their check line holds (R338): each that no cache holds dirty is
read and written with its inverted check; a copy no cache holds is poisoned with it. -/
def State.checkLineLost (s : State) (p first : Nat) : State :=
  let c := dataEnd (s.recordedCap p)
  let s := (List.range 64).foldl (fun s i =>
    let r := portLine p (first + i)
    let ln := absLine s.live.sets s.pwr.modid.val p r.dev
    if c ≤ r.dev ∨ ¬ s.cleanInDeck r ln then s
    else
      let s := ((s.countPm p 0x02 1).countPm p 0x03 1).mediaWrite r.key r.dev (s.mem.media.bytes (r.key * 256) 256) true
      if s.heldHere ln ∨ (s.man ln p).holders ≠ 0 then s else s.curFromMedia r.key) s
  s.pmErr p (absLine s.live.sets s.pwr.modid.val p (first * 256)) 5

/-- Whether the check line from device line `first` on is dirty in the check cache (R337). -/
def State.checkDirty (s : State) (p first : Nat) : Bool :=
  s.mem.ckOld.any (fun e => decide (p * 2 ^ 32 + first ≤ e.1 ∧ e.1 < p * 2 ^ 32 + first + 64))

/-- What an expander holds for a line is not what the home last wrote: its data, stored check and Poison bits as the read
brings them. -/
def Mem.returned (m : Mem) (key dev : Nat) (data : Option (List Byte)) (check : Option (BitVec 32)) (poison : Bool) : Mem :=
  let old : BitVec 32 := (m.checks.get key none).getD (tileCheck dev (m.media.bytes (key * 256) 256))
  let media : Memory := match data with
    | some l => if l.length = 256 then m.media.setBytes (key * 256) l else m.media
    | none => m.media
  let w : BitVec 32 := check.getD old
  let checks := m.checks.put key (if w = tileCheck dev (media.bytes (key * 256) 256) then none else some w) none
  { m with media := media, checks := checks, mpoison := if poison then m.mpoison.put key true false else m.mpoison }

/-- MEMORY_READ_DATA (R319, R333, R338): an expander returns a line, its stored check and its Poison bits, where they are
not what the home last wrote; the home verifies them.  A check line returned with Poison loses its checks. -/
def execMemoryReadData (port : Fin 16) (dev : BitVec 32) (data : Option (List Byte)) (check : Option (BitVec 32))
    (poison : Bool) (s : State) : Out :=
  .next (
    let p := port.val
    let d := dev.toNat
    let c := dataEnd (s.recordedCap p)
    if ¬ s.mainOn ∨ s.portState p ≠ 2 ∨ s.recordedCap p ≤ d * 256 then s
    else if c ≤ d * 256 then (if poison then (s.checkLineLost p ((d * 256 - c) / 256 * 64)).report (0x180 + p) else s)
    else
      let r := portLine p d
      let ln := absLine s.live.sets s.pwr.modid.val p r.dev
      let s1 : State := { s with mem := s.mem.returned r.key r.dev data check poison }
      let held : Bool := (s.holders ln).any (fun e => decide (e.2.st ≠ .i)) || decide ((s.man ln p).holders ≠ 0)
      let s2 : State := if held then s1
        else { s1 with mem := { s1.mem with cur := s1.mem.cur.setBytes (r.key * 256) (s1.mem.media.bytes (r.key * 256) 256) } }
      s2.verify r ln false)

/-- MEMORY_WRITE_CMP (R319, R337, R345): an expander has acknowledged a line write.  A data line is in memory from the
moment its home wrote it; a check line brings the checks of its 64 lines to the expander. -/
def execMemoryWriteCmp (port : Fin 16) (dev : BitVec 32) (s : State) : Out :=
  .next (
    let p := port.val
    let c := dataEnd (s.recordedCap p)
    let d := dev.toNat * 256
    if ¬ s.mainOn ∨ s.portState p ≠ 2 ∨ d < c ∨ s.recordedCap p ≤ d then s
    else
      let first := p * 2 ^ 32 + (d - c) / 256 * 64
      let f (k : Nat) : Bool := !decide (first ≤ k ∧ k < first + 64)
      { s with mem := { s.mem with ckOld := s.mem.ckOld.filter (fun e => f e.1), ckAge := s.mem.ckAge.filter (fun e => f e.1) } })

/-! ## PM_POISON -/

/-- A write of PM_POISON of port `p` (R336, R356); the home marks a line with an open transaction when that closes (R259). -/
def State.pmPoison (s : State) (p : Nat) (v : Word) : State :=
  if bits v 7 0 ≠ 0 ∨ bits v 63 52 ≠ 0 then s
  else match s.ownLine (bits v 51 8) with
    | some r =>
      let ln := bits v 51 8
      if r.port ≠ p then s
      else if (s.txnOf ln).isSome then s.setHome p { s.home p with poisons := (s.home p).poisons ++ [ln] }
      else s.poisonLine r ln
    | none => s

/-- PM_POISON (R336, R356). -/
def execPmPoison (src : Src) (port : Fin 16) (v : Word) (s : State) : Out :=
  .next (if s.srcMay src 1 then s.pmPoison port.val v else s)

/-! ## Dirty age and scrub -/

/-- A cache's age writeback of one line (R329, R330). -/
def State.ageLine (s : State) (agent ln : Nat) (c : CLine) : State :=
  match s.lineRef ln with
  | none => s
  | some r =>
    let s := if r.own then s.countPm r.port 0x06 1 else s
    (s.setCline agent ln { c with st := if c.st = .m then .e else .s }).writeHome r c.scratch

/-- SWEEPER_EPOCH (R328 to R330, R337): an epoch of DIRTY_AGE_MS / 4 begins; durable lines dirty since the third epoch before
it go home, and so do check lines as old. -/
def execSweeperEpoch (s : State) : Out :=
  .next (
    if ¬ s.mainOn then s
    else
      let s := s.withCaches (fun c => { c with epoch := c.epoch + 1 })
      let now := s.vol.caches.epoch
      let aged := s.vol.caches.dir.filter (fun e => e.2.st.dirty && !e.2.scratch && decide (e.2.epoch + 3 ≤ now))
      let s := aged.foldl (fun s e => s.ageLine (e.1 % 128) (e.1 / 128) e.2) s
      let old (k : Nat) : Bool := decide (s.mem.ckAge.get k 0 + 3 ≤ now) && decide (s.portState (k / 2 ^ 32) = 2)
      { s with mem := { s.mem with ckOld := s.mem.ckOld.filter (fun e => !old e.1),
                                   ckAge := s.mem.ckAge.filter (fun e => !old e.1) } })

/-- SCRUB_LINE (R339): the next data line of the port is read and verified without a consumer. -/
def execScrubLine (port : Fin 16) (s : State) : Out :=
  .next (
    let p := port.val
    let n := dataEnd (s.recordedCap p) / 256
    if ¬ s.mainOn ∨ s.portState p ≠ 2 ∨ ¬ bit (s.reg (offPm p + 8)) 0 ∨ n = 0 then s
    else
      let d := s.vol.scrub.get p 0 % n
      let r := portLine p d
      let s := s.verify r (absLine s.live.sets s.pwr.modid.val p r.dev) true
      let s := { s with vol := { s.vol with scrub := s.vol.scrub.put p (if d + 1 = n then 0 else d + 1) 0 } }
      if d + 1 = n then s.pmEvent p 6 else s)

end Sys2Proof.Machine
end

