-- ==== Sys2Proof/Machine/Strays.lean ====
section
/-! DEFINITION. Strays (R369, R379): their replay to their homes (R383) and the carried area (R384). -/

namespace Sys2Proof.Machine

/-- The CHECK of a stray (R379). -/
def strayCheck (line : Nat) (data : List Byte) : BitVec 32 := crc32c (toBytes (line * 256) 8 ++ data)

/-- The strays the carried area holds: 256 B of each in 1.5 GiB (R373, R384). -/
def carryMax : Nat := 0x60000000 / 256

/-- A stray whose home is unreachable is carried, replacing an earlier one of its line; a full area drops it (R384). -/
def State.carry (s : State) (x : Stray) : State :=
  let l := s.nv.carried
  if ¬ l.any (fun y => decide (y.line = x.line)) ∧ carryMax ≤ l.length then
    let n := min (s.regF (offLand + 0x30) 47 32 + 1) 0xFFFF
    (s.setRegF (offLand + 0x30) 47 32 n).reportWith 0x150 (BitVec.ofNat 32 n)
  else
    let s : State := { s with nv := { s.nv with carried := l.filter (fun y => decide (y.line ≠ x.line)) ++ [x] } }
    s.lsForget (fun o => decide (lsArea o = LsArea.carried))

/-- One stray is written home as a full line, poisoned where its CHECK fails or it was poisoned (R383); one whose home is
unreachable is carried. -/
def State.replayStray (s : State) (x : Stray) : State :=
  let bad := x.poison || decide (x.check ≠ strayCheck x.line x.data)
  match s.lineRef x.line with
  | none => s.carry x
  | some r =>
    let s := { s with pwr := { s.pwr with replayed := s.pwr.replayed + 1, poisoned := s.pwr.poisoned || bad } }
    if ¬ r.own then s.sendTo (lineModule x.line)
    else
      let s := ((s.snoopRemote .invf r x.line).snoopAll .invf 999 x.line).loseResvOthers 999 x.line
      let s := { s with mem := { s.mem with cur := s.mem.cur.setBytes (r.key * 256) x.data,
                                            poison := s.mem.poison.put r.key bad false } }
      s.writeHome r false

/-- Strays are replayed in order. -/
def State.replayStrays (s : State) (l : List Stray) : State := l.foldl State.replayStray s

/-- Where a landing slot begins in the store (R373). -/
def slotBase (b : Bool) : Nat := if b then 0x280000000 else 0x100000000

/-- Whether the index entry and the data line of the k-th stray of a slot authenticate (R375, R379): first the one, then the other. -/
def State.strayTags (s : State) (b : Bool) (k : Nat) : Bool × Bool :=
  let ok (o : Nat) : Bool := !s.nv.lsBad.get ((slotBase b + o) / 256) false
  (ok (strayIdxOff + 16 * k), ok (strayDataOff + 256 * k))

/-- The strays of a slot with their tags: one whose data line fails its tag is poisoned (R383). -/
def State.slotStrays (s : State) (b : Bool) (l : List Stray) : List Stray :=
  l.zipIdx.map (fun e => if (s.strayTags b e.2).2 then e.1 else { e.1 with poison := true })

/-- The carried strays are replayed; those whose home is still unreachable are carried again (R384). -/
def State.replayCarried (s : State) : State :=
  let l := s.nv.carried
  { s with nv := { s.nv with carried := [] } }.replayStrays l

end Sys2Proof.Machine
end

