-- ==== Sys2Proof/Machine/Causeway.lean ====
section
/-! DEFINITION. The causeway links and the deck (R7, R31, R274 to R277, R284 to R286). -/

namespace Sys2Proof.Machine

/-- The modules reached over trained links, this one included (R276). -/
def State.deckMask (s : State) : Nat :=
  s.linksUp.foldl (fun m l => m ||| (s.vol.peers.get l (0, false)).1) (2 ^ s.pwr.modid.val)

/-- The requests, answers and completions of a module that is gone, or has left, are no longer waited for. -/
def State.forgetModule (s : State) (m : Nat) : State :=
  let s := s.withCaches (fun c => { c with
    txns := (c.txns.filter (fun t => decide (t.req.req / 128 ≠ m))).map
      (fun t => { t with wait := t.wait.filter (fun w => decide (w ≠ 1024 + m)), wbp := t.wbp.filter (fun w => decide (w ≠ m)) })
    grants := c.grants.filter (fun g => decide (g.req.req / 128 ≠ m)) })
  let s := (List.range 16).foldl (fun s p =>
    let h := s.home p
    (s.setHome p { h with queue := h.queue.filter (fun q => decide (q.req / 128 ≠ m)),
                          tickets := h.tickets.filter (fun t => decide (t.1 / 128 ≠ m)) }).openQueued p) s
  s.wakeWaiters

/-- A module is no longer reachable (R277): its dirty lines are poisoned at their homes, its bits go, transactions no longer
wait for it. -/
def State.unreachable (s : State) (m : Nat) : State :=
  let b := BitVec.ofNat 8 (2 ^ m)
  let named := s.vol.caches.manifest.filter (fun e => decide (e.2.holders &&& b ≠ 0))
  let s := named.foldl (fun s e =>
    match s.ownLine e.1 with
    | none => s
    | some r =>
      let s := s.setMan e.1 { e.2 with holders := e.2.holders &&& ~~~ b }
      if e.2.dirty then
        { s with mem := { s.mem with poison := s.mem.poison.put r.key true false } }.writeHome r false
      else s) s
  s.forgetModule m

/-- CWY_DECK follows the links (R276, R286): RING while both ways round have a link whose peer reports a closed ring; modules that are
gone are unreachable (R277). -/
def State.deckUpdate (s : State) : State :=
  let old := s.regF (offCwy + 0x40) 7 0
  let closed (asc : Bool) : Bool := s.linksUp.any (fun l => decide (l < 2) == asc && (s.vol.peers.get l (0, false)).2)
  let new := s.deckMask
  let s := s.setReg (offCwy + 0x40) (field 7 0 new ||| field 8 8 (b2n (closed true && closed false)))
  ((List.range 8).filter (fun m => old.testBit m && !new.testBit m && decide (m ≠ s.pwr.modid.val))).foldl State.unreachable s

/-- The version both ends offer that is the highest (R275): 0x21, 0x20 or none. -/
def commonVersion (l : List Byte) : Option Nat :=
  if l.contains 0x21 then some 0x21 else if l.contains 0x20 then some 0x20 else none

/-- WIDTH of the lanes that trained: all, 0 to 7, or 8 to 15 (R275). -/
def laneWidth (m : BitVec 16) : Option Nat :=
  if m = 0xFFFF then some 0
  else if m &&& 0xFF = 0xFF then some 1
  else if m &&& 0xFF00 = 0xFF00 then some 2 else none

/-- The first failing stage of R275, as REFUSE numbers it: lanes, version, then the checks of R7 and R31. -/
def State.linkRefuse (s : State) (p : CwyPeer) : Nat :=
  if (laneWidth p.lanes).isNone then 6
  else if (commonVersion p.versions).isNone then 4
  else if p.stepping ≠ s.pwr.stepping then 1
  else if decide (p.part = 3) ≠ decide (s.pwr.part = 3) then 2
  else if p.modid.toNat = s.pwr.modid.val then 3
  else 0

/-- A link comes UP or is refused (R275); UP brings its modules into the deck, the timebases to the largest (R43, R387),
and the carried strays of reachable homes (R384).  Answers whether it is UP. -/
def State.trainLink (s : State) (l : Nat) (p : CwyPeer) : Bool × State :=
  let code := s.linkRefuse p
  if code ≠ 0 then (false, (s.setRegF (offLink l) 26 24 code).report (0x1C4 + l))
  else
    let mask := 2 ^ p.modid.toNat ||| p.beyond.toNat
    let s := { s with vol := { s.vol with peers := s.vol.peers.put l (mask, p.ring) (0, false) } }
    let s := s.setReg (offLink l) (field 2 0 2 ||| field 6 4 p.modid.toNat ||| field 8 7 p.link.toNat |||
      field 23 16 ((commonVersion p.versions).getD 0) ||| field 33 32 ((laneWidth p.lanes).getD 0))
    let s := (s.present (24 + l) true).deckUpdate
    let s := { s with live := { s.live with time := if s.live.time < p.timebase then p.timebase else s.live.time } }
    (true, if s.pwr.phase = .running then s.replayCarried else s)

/-- A link leaves the deck. -/
def State.dropLink (s : State) (l st : Nat) : State :=
  let s := s.setRegF (offLink l) 2 0 st
  let s := { s with vol := { s.vol with peers := s.vol.peers.put l (0, false) (0, false) } }
  (s.present (24 + l) false).deckUpdate

/-- A link that is UP brings news of what is reached beyond it, as a link elsewhere in the deck fails or trains (R276, R286, log 55). -/
def State.linkNews (s : State) (l : Nat) (p : CwyPeer) : State :=
  if p.modid.toNat ≠ s.regF (offLink l) 6 4 then s
  else
    let mask := 2 ^ p.modid.toNat ||| p.beyond.toNat
    let s := { s with vol := { s.vol with peers := s.vol.peers.put l (mask, p.ring) (0, false) } }.deckUpdate
    if s.pwr.phase = .running then s.replayCarried else s

/-- CAUSEWAY_LINK_TRAINED (R275, R276). -/
def execCausewayLinkTrained (link : Fin 4) (peer : CwyPeer) (s : State) : Out :=
  .next (
    let l := link.val
    if s.mainOn ∧ s.linkState l = 2 then s.linkNews l peer
    else if ¬ s.mainOn ∨ s.linkState l ≠ 1 then s
    else match s.trainLink l peer with
      | (true, s) => s
      | (false, s) => s.setRegF (offLink l) 2 0 4)

/-- CAUSEWAY_TRAIN_TIMEOUT (R275). -/
def execCausewayTrainTimeout (link : Fin 4) (s : State) : Out :=
  .next (
    let l := link.val
    if ¬ s.mainOn ∨ s.linkState l ≠ 1 then s
    else ((s.setRegF (offLink l) 2 0 4).setRegF (offLink l) 26 24 5).report (0x1C4 + l))

/-- CAUSEWAY_LINK_DOWN (R276, R277): the traffic moves, and the failure is reported. -/
def execCausewayLinkDown (link : Fin 4) (s : State) : Out :=
  .next (
    let l := link.val
    if ¬ (s.mainOn ∨ s.pwr.phase = .landing) ∨ s.linkState l ≠ 2 then s
    else (s.dropLink l 0).report (0x1C4 + l))

/-- A causeway link is fenced (R276, R560). -/
def State.fenceLink (s : State) (l : Nat) : State := (s.dropLink l 3).modEvent 1

end Sys2Proof.Machine
end

