-- ==== Sys2Proof/Machine/Seal.lean ====
section
/-! DEFINITION. How the landing-store controllers keep a line (R375): the landing key pair, the counter blocks, the ciphertext and the
trailer.  No access reaches a trailer (R373); what a failing tag does is in Store.lean, Access.lean and Start.lean. -/

namespace Sys2Proof.Machine

/-- The landing key pair of the current key epoch (R375, R535): the CTR key and the CMAC key. -/
def State.landingKeys (s : State) : List Byte × List Byte :=
  (Config.derive 3 s.nv.otp.epoch 0, Config.derive 4 s.nv.otp.epoch 0)

/-- The counter block of 16-B block `j` of line `k` at write count `n` (R375), its bits 127:64 in the first eight bytes, as FIPS 197 numbers
the bytes of a block (log 56). -/
def lsCounter (n k j : Nat) : List Byte := beBytes n 8 ++ beBytes (k % 2 ^ 32 * 2 ^ 32 + j % 16) 8

/-- CTR encryption or decryption of a line's bytes (R375). -/
def lsCipher (key : List Byte) (n k : Nat) (data : List Byte) : List Byte :=
  ((chunks 16 16 data).zipIdx.map (fun e => xorBytes e.1 (aesEnc key (lsCounter n k e.2)))).flatten

/-- The 256 bytes of a line. -/
def State.lsLine (s : State) (k : Nat) : List Byte := (List.range 256).map (fun i => s.lsByte (256 * k + i))

/-- The ciphertext a stack holds for a line (R375). -/
def State.lsStored (s : State) (k : Nat) : List Byte := lsCipher s.landingKeys.1 (s.nv.lsCount.get k 0) k (s.lsLine k)

/-- The trailer of a line (R375): its write count, and the first 64 bits of the CMAC over the write count, the line number and the
ciphertext, each number in eight bytes (log 56). -/
def State.lsTrailer (s : State) (k : Nat) : Nat × List Byte :=
  let n := s.nv.lsCount.get k 0
  (n, (cmac s.landingKeys.2 (beBytes n 8 ++ beBytes k 8 ++ s.lsStored k)).take 8)

end Sys2Proof.Machine
end

