-- ==== Sys2Proof/Machine/Landing.lean ====
section
/-! DEFINITION. The landing (R359 to R380): its triggers, the freeze, the recall, the writeback of lines, strays, GPF and the
seal. -/

namespace Sys2Proof.Machine

/-- Changes the landing in progress. -/
def State.withLand (s : State) (f : Landing → Landing) : State := { s with pwr := { s.pwr with land := f s.pwr.land } }

/-- Sets POWER_STATE (R41). -/
def State.setPower (s : State) (v : Nat) : State := s.setRegF 0x18 2 0 v

/-- Enters a phase. -/
def State.setPhase (s : State) (p : Phase) : State := { s with pwr := { s.pwr with phase := p } }

/-- The slot a landing writes (R377): true is B. -/
def State.landSlot (s : State) : Bool := decide (s.nv.resumed = some false)

/-- A landing slot. -/
def Nv.slotOf (n : Nv) (b : Bool) : Slot := if b then n.slotB else n.slotA

/-- Replaces a landing slot. -/
def State.setSlot (s : State) (b : Bool) (x : Slot) : State :=
  { s with nv := if b then { s.nv with slotB := x } else { s.nv with slotA := x } }

/-- The module writes a part of a slot's state line and record body: its bytes are the record's, its lines good (R375, R378). -/
def State.writeSlot (s : State) (b : Bool) (lo hi : Nat) (x : Slot) : State :=
  let s := (s.setSlot b x).lsForget (fun o => decide (slotBase b + lo ≤ o ∧ o < slotBase b + hi))
  let s : State := { s with nv := { s.nv with lsBad := s.nv.lsBad.filter (fun e =>
    !decide (slotBase b + lo < e.1 * 256 + 256 ∧ e.1 * 256 < slotBase b + hi)) } }
  s.lsWritten
    ((List.range ((min hi 0x1000 + 255) / 256 - lo / 256)).map (fun i => slotBase b / 256 + lo / 256 + i))

/-! ## Triggers -/

/-- Counts a device access abandoned or dropped against the LP's partition (R365, R390). -/
def State.countAbandoned (s : State) (lp : LpId) : State :=
  let p := bits (s.lp lp).part 5 0
  s.withLand (fun l => { l with abandoned := l.abandoned.put p (l.abandoned.get p 0 + 1) 0 })

/-- The freeze reaches an LP (R364, R365, R547): a debug halt ends, and a device access it waits for is abandoned, the LP
landing as if it had raised BUS_PRECISE. -/
def State.freezeLp (s : State) (lp : LpId) : State :=
  let v := s.lpv lp
  let l := s.lp lp
  let wait := match v.devLoad with
    | some d => some d
    | none => v.devStore
  let s := match wait with
    | some d =>
      let e : Exc := { excBus d.addr d.finfo with pc := (s.slip lp).pc, iword := d.iword }
      (s.setLp lp { l with abandoned := some e }).countAbandoned lp
    | none => s
  s.setLpv lp { s.lpv lp with freeze := true, halted := false, devLoad := none, devStore := none,
                              frozen := decide (l.st = LpSt.stopped ∨ l.st = LpSt.locked) && s.released lp }

/-- The LPs of the module. -/
def State.lpsAll (s : State) : List LpId := (List.finRange 64).filter (fun n => decide (n.val < s.lpCount))

/-- LOCKUP_N is asserted, low, while any LP of the module is LOCKED, and released when none is (R147). -/
def State.lockupLow (s : State) : Bool := s.lpsAll.any (fun n => decide ((s.lp n).st = .locked))

/-- Every LP has stopped (R364 step 3): TB_FROZEN is the time of the last one (R378). -/
def State.noteFrozen (s : State) : State :=
  if s.pwr.phase = .landing ∧ ¬ s.pwr.land.frozen ∧ s.lpsAll.all (fun n => (s.lpv n).frozen) then
    s.withLand (fun l => { l with frozen := true, tbFrozen := s.live.time })
  else s

/-- Step 5 begins when step 4 is complete and the recall has closed (R364): the check caches go to the expanders (R337), and
GPF phase 1 to every admitted port. -/
def State.landGpf (s : State) : State :=
  let l := s.pwr.land
  if ¬ l.linesDone ∨ ¬ l.recallClosed ∨ l.gpfOn then s
  else
    let ports := (List.range 16).filter (fun p => decide (s.portState p = 2))
    let s := { s with mem := { s.mem with ckOld := [], ckAge := [] } }
    s.withLand (fun l => { l with gpfOn := true, gpf1 := BitVec.ofNat 16 (ports.map (2 ^ ·)).sum })

/-- The other members of the deck, as a mask. -/
def State.members (s : State) : Nat := s.regF (offCwy + 0x40) 7 0 &&& (255 - 2 ^ s.pwr.modid.val)

/-- A message leaves for every other member of the deck (R274). -/
def State.sendMembers (s : State) : State := ((List.range 8).filter (fun m => s.members.testBit m)).foldl State.sendTo s

/-- A line that a member has not returned in time is poisoned in memory, or parked poisoned; a dirty copy of this module keeps its data, and
its writeback replaces the poison (R334, R368). -/
def State.recallPoison (s : State) (r : LineRef) (ln : Nat) : State :=
  let mine : Bool := (s.holders ln).any (fun h => h.2.st.dirty)
  let s := if s.portState r.port = 2 then
      (s.countPm r.port 0x03 1).mediaWrite r.key r.dev (s.mem.media.bytes (r.key * 256) 256) true
    else s.park r.port ⟨r.dev / 256, s.lineBytes r.key, ~~~ tileCheck r.dev (s.lineBytes r.key), false, true⟩
  if mine then s else { s with mem := { s.mem with poison := s.mem.poison.put r.key true false } }

/-- The recall closes (R368): lines that a manifest entry names dirty are poisoned at their homes, every entry is freed. -/
def State.closeRecall (s : State) (late : Bool) : State :=
  let bad := s.vol.caches.manifest.filter (fun e => e.2.dirty)
  let s := bad.foldl (fun s e =>
    match s.ownLine e.1 with
    | none => s
    | some r => s.recallPoison r e.1) s
  let s := s.withCaches (fun c => { c with manifest := [] })
  (s.withLand (fun l => { l with recallClosed := true, late := late && !bad.isEmpty })).landGpf

/-- A landing begins (R361, R364): POWER_STATE reads LANDING, the slot is OPEN, RECALL goes to the deck, every LP is
frozen, every mooring ends (R267), and the debug level closes (R547). -/
def State.beginLanding (s : State) (trigger : Nat) : State :=
  let b := s.landSlot
  let c := BitVec.ofNat 3 (2 ^ trigger)
  let others := s.members
  let s := (s.setPhase .landing).setPower 1
  let s := s.setRegF 0x18 6 5 0
  let s := s.withLand (fun _ => { Landing.none with cause := c, first := trigger, tbTrigger := s.live.time,
                                                    members := BitVec.ofNat 8 others })
  let s := s.writeSlot b 0 0x180000000 { Slot.blank with st := .opened, seq := s.nv.cfg.seq + 1, tbTrigger := s.live.time }
  let s := (s.sendMembers).endMoorings
  let s := s.lpsAll.foldl State.freezeLp s
  let s := s.noteFrozen
  if others = 0 then s.closeRecall false else s

/-- A further trigger of a landing adds its cause (R362). -/
def State.addCause (s : State) (trigger : Nat) : State :=
  s.withLand (fun l => { l with cause := l.cause ||| BitVec.ofNat 3 (2 ^ trigger) })

/-- Drives FAULT_HOLD_N: `true` is low (R564). -/
def State.setFaultHold (s : State) (v : Bool) : State := { s with std := { s.std with faultHold := v } }

/-- HOLD is applied (R563): FAULT_HOLD_N goes low and the module lands with cause HOLD; during a landing the cause is added,
after it the quiet period starts again (R561); before the commit point of a resume the module is LANDED again (R385). -/
def State.hold (s : State) : State :=
  let s := s.setRegF (offFc + 0x10) 63 32 (min (s.regF (offFc + 0x10) 63 32 + 1) 0xFFFFFFFF)
  match s.pwr.phase with
  | .running => (s.setFaultHold true).beginLanding 1
  | .landing => (s.setFaultHold true).addCause 1
  | .training =>
    let s := s.setFaultHold true
    if s.pwr.resume then (s.setPhase .landed).setPower 2 else (s.setPhase .unsealed).setPower 4
  | _ => s

/-- A start in progress stops at a power-fail warning (R385, R606). -/
def State.stopStart (s : State) : State :=
  if s.pwr.resume then (s.setPhase .landed).setPower 2 else s.setPhase .waiting

/-- PWRFAIL_LOW (R361, R385, R606, R647). -/
def execPwrfailLow (s : State) : Out :=
  .next (
    if ¬ s.std.standby then s
    else
      let s := { s with std := { s.std with pwrfail := true } }
      match s.pwr.phase with
      | .running => s.beginLanding 0
      | .landing => s.addCause 0
      | .training => s.stopStart
      | _ => s)

/-- PWRFAIL_RISE (R362, R647): it stops no landing. -/
def execPwrfailRise (s : State) : Out := .next { s with std := { s.std with pwrfail := false } }

/-- A write of LAND_CTL (R361, R396). -/
def State.landCtl (s : State) (v : Word) : State :=
  if bit v 0 ∧ s.pwr.phase = .running then s.beginLanding 2
  else if bit v 0 ∧ s.pwr.phase = .landing then s.addCause 2 else s

/-- LAND_REQUEST (R361, R396). -/
def execLandRequest (src : Src) (s : State) : Out := .next (if s.srcKeel src then s.landCtl 1 else s)

/-! ## Recall -/

/-- The lines of a module's main memory that caches here hold. -/
def State.linesHomedIn (s : State) (m : Nat) : List (Nat × CLine) :=
  s.vol.caches.dir.filter (fun e => decide (e.1 / 128 / 0x1000000000 = m))

/-- RECALL (R368): lines homed in the landing module are written back and leave, and RECALL_DONE answers it. -/
def execRecall (modid : Fin 8) (s : State) : Out :=
  .next (
    if modid = s.pwr.modid ∨ ¬ (s.mainOn ∨ s.pwr.phase = .landing) then s
    else
      let s := (s.linesHomedIn modid.val).foldl (fun s e =>
        let s := (s.lpsOf (e.1 % 128)).foldl (fun s n => s.loseResv n (e.1 / 128)) s
        s.evictHome (e.1 % 128) (e.1 / 128)) s
      s.sendTo modid.val)

/-- RECALL_DONE (R368): the recall closes when every member has answered. -/
def execRecallDone (modid : Fin 8) (s : State) : Out :=
  .next (
    let l := s.pwr.land
    let b : BitVec 8 := BitVec.ofNat 8 (2 ^ modid.val)
    if s.pwr.phase ≠ .landing ∨ l.recallClosed ∨ l.members &&& b = 0 then s
    else
      let s := s.withLand (fun l => { l with answered := l.answered ||| b })
      if s.pwr.land.answered = l.members then s.closeRecall false else s)

/-- RECALL_TIMEOUT (R368): 1.5 ms after the trigger the recall closes. -/
def execRecallTimeout (s : State) : Out :=
  .next (if s.pwr.phase ≠ .landing ∨ s.pwr.land.recallClosed then s else s.closeRecall true)

/-- LEFT (R367): a module holds no line any more. -/
def execLeft (modid : Fin 8) (s : State) : Out :=
  .next (
    if modid = s.pwr.modid ∨ ¬ (s.mainOn ∨ s.pwr.phase = .landing) then s
    else
      let b : BitVec 8 := BitVec.ofNat 8 (2 ^ modid.val)
      let named := s.vol.caches.manifest.filter (fun e => decide (e.2.holders &&& b ≠ 0))
      let s := named.foldl (fun s e => s.setMan e.1 { e.2 with holders := e.2.holders &&& ~~~ b, wbk := e.2.wbk &&& ~~~ b }) s
      let s := s.withCaches (fun c => { c with
        txns := c.txns.map (fun t => { t with wait := t.wait.filter (fun w => decide (w ≠ 1024 + modid.val)),
                                              wbp := t.wbp.filter (fun w => decide (w ≠ modid.val)) }) })
      s.withLand (fun l => if s.pwr.phase = .landing then { l with left := l.left ||| b } else l))

/-! ## Step 4: lines -/

/-- The key of a line in `Mem`, whether or not its home can be reached. -/
def State.lineKey (s : State) (ln : Nat) : Nat :=
  match s.lineRef ln with
  | some r => r.key
  | none => 2 ^ 48 + ln

/-- A line becomes a stray of the landing (R369, R379). -/
def State.strayLine (s : State) (ln : Nat) (data : List Byte) (poison : Bool) : State :=
  s.withLand (fun l => { l with strays := l.strays ++ [⟨ln, data, strayCheck ln data, poison⟩] })

/-- A cached line becomes a stray. -/
def State.strayCached (s : State) (ln : Nat) : State :=
  let k := s.lineKey ln
  s.strayLine ln (s.lineBytes k) (s.mem.poison.get k false)

/-- Step 4 for one cached line (R360, R367, R369): scratch and clean lines go; a dirty durable one goes home, to the park
area, or becomes a stray. -/
def State.landLine (s : State) (ln : Nat) (c : CLine) : State :=
  if ¬ c.st.dirty then s
  else if c.scratch then
    match s.ownLine ln with
    | some r => s.curFromMedia r.key
    | none => s
  else match s.lineRef ln with
    | none => s.strayCached ln
    | some r =>
      if ¬ r.own then s.writeHome r false
      else if s.portState r.port ≠ 2 ∧ parkMax ≤ (s.nv.parks.get r.port []).length then s.strayCached ln
      else s.writeHome r false

/-- A held write at a landing (R343): a stray, or discarded. -/
def State.landHeld (s : State) (p : Nat) (w : Park) : State :=
  if w.scratch then s
  else s.strayLine (absLine s.live.sets s.pwr.modid.val p (w.dev * 256)) w.data
    (w.poison || decide (w.check ≠ tileCheck (w.dev * 256) w.data))

/-- A landing discards the parked scratch lines of a port (R342). -/
def State.landPark (s : State) (p : Nat) : State :=
  let l := s.nv.parks.get p []
  let keep := l.filter (fun w => !w.scratch)
  if keep.length = l.length then s
  else { s with nv := { s.nv with parks := s.nv.parks.put p keep [] } }.setRegF (offPm p + 0x40) 16 0 keep.length

/-- LINE_WRITEBACK_DONE (R360, R364 step 4, R367): the lines homed elsewhere are out or strays, LEFT is sent, and the
module's own lines are accepted. -/
def execLineWritebackDone (s : State) : Out :=
  .next (
    let l := s.pwr.land
    if s.pwr.phase ≠ .landing ∨ ¬ l.quiesced ∨ ¬ l.frozen ∨ l.linesDone then s
    else
      let away := s.vol.caches.dir.filter (fun e => (s.ownLine (e.1 / 128)).isNone)
      let near := s.vol.caches.dir.filter (fun e => (s.ownLine (e.1 / 128)).isSome)
      let s := s.vol.held.foldl (fun s h => h.2.foldl (fun s w => s.landHeld h.1 w) s) s
      let s := (away ++ near).foldl (fun s e => s.landLine (e.1 / 128) e.2) s
      let s := (List.range 16).foldl State.landPark s
      let s := { s with vol := { s.vol with held := [], caches := { s.vol.caches with dir := [], l1 := [] } } }.sendMembers
      (s.withLand (fun l => { l with linesDone := true, acks := 15 })).landGpf)

/-- WBK_ACK_TIMEOUT (R369): a writeback to another module's home, not acknowledged, leaves its line a stray. -/
def execWbkAckTimeout (line : BitVec 44) (s : State) : Out :=
  .next (
    let l := s.pwr.land
    let ln := line.toNat
    if s.pwr.phase ≠ .landing ∨ ¬ l.quiesced ∨ ¬ l.frozen ∨ l.linesDone ∨ (s.ownLine ln).isSome then s
    else match (s.holders ln).find? (fun e => e.2.st.dirty && !e.2.scratch) with
      | none => s
      | some _ =>
        let s := s.strayCached ln
        (s.holders ln).foldl (fun s e => s.setCline e.1 ln CLine.none) s)

/-- LANDING_STORE_WRITE_ACK (R359, R374): a stack has acknowledged the writes of the landing slot; a failed one never
does. -/
def execLandingStoreWriteAck (stack : Fin 4) (s : State) : Out :=
  .next (if s.pwr.phase ≠ .landing ∨ ¬ s.pwr.land.linesDone then s
    else s.withLand (fun l => { l with acks := l.acks &&& ~~~ BitVec.ofNat 4 (2 ^ stack.val) }))

/-! ## Step 5: GPF -/

/-- GPF_PHASE1_RESPONSE (R364): phase 2 goes to the expander. -/
def execGpfPhase1Response (port : Fin 16) (s : State) : Out :=
  .next (
    let b : BitVec 16 := BitVec.ofNat 16 (2 ^ port.val)
    if s.pwr.phase ≠ .landing ∨ s.pwr.land.gpf1 &&& b = 0 then s
    else s.withLand (fun l => { l with gpf1 := l.gpf1 &&& ~~~ b, gpf2 := l.gpf2 ||| b }))

/-- GPF_PHASE2_RESPONSE (R364, R378): the port's Dirty Shutdown Count is recorded. -/
def execGpfPhase2Response (port : Fin 16) (dsc : BitVec 32) (s : State) : Out :=
  .next (
    let b : BitVec 16 := BitVec.ofNat 16 (2 ^ port.val)
    if s.pwr.phase ≠ .landing ∨ s.pwr.land.gpf2 &&& b = 0 then s
    else s.withLand (fun l => { l with gpf2 := l.gpf2 &&& ~~~ b, dsc := l.dsc.put port.val dsc 0 }))

/-! ## Step 7: the seal -/

/-- IDENTITY (R378): stepping, part, MODID, image slot. -/
def State.identity (s : State) : Word :=
  field 7 0 s.pwr.stepping.toNat ||| field 11 8 s.pwr.part.toNat ||| field 14 12 s.pwr.modid.val ||| field 15 15 (b2n s.pwr.imgB)

/-- IMAGE_DIGEST of the running image (R534), as the start that read it found it. -/
def State.imageDigest (s : State) : List Byte := s.live.digest

/-- Whether steps 2 to 6 of a landing are complete (R364). -/
def Landing.complete (l : Landing) : Bool :=
  l.quiesced && l.frozen && l.linesDone && l.recallClosed && l.gpfOn && decide (l.gpf1 = 0 ∧ l.gpf2 = 0)

/-- What the configuration copies keep of a sealed landing (R376, R378). -/
def State.sealCfg (s : State) (b : Bool) : Cfg :=
  let l := s.pwr.land
  { s.nv.cfg with
    landed := true, seq := s.nv.cfg.seq + 1, sealEpoch := s.nv.otp.epoch, cause := l.cause.toNat, slot := b,
    landingUs := (s.live.time - l.tbTrigger).toNat / 1000 % 2 ^ 32, strays := l.strays.length, late := l.late,
    tbMark := some s.live.time,
    dsc := l.dsc.foldl (fun d e => d.put e.1 (some e.2) none) s.nv.cfg.dsc }

/-- A register of the LAND block as a start recomputes it (R395, R398 to R400): the last sealed landing, the strays. -/
def State.landComputed (s : State) (o : Nat) : Word :=
  let c := s.nv.cfg
  let r := s.reg (offLand + o)
  if o = 0 then
    field 2 0 c.cause ||| field 3 3 (b2n c.slot) ||| field 7 4 s.pwr.cold ||| field 8 8 (b2n c.late) ||| (r &&& msk 9 9)
  else if o = 0x18 then field 31 0 c.landingUs ||| (r &&& msk 63 32)
  else if o = 0x20 then c.seq
  else if o = 0x28 then field 31 0 c.strays ||| field 63 32 s.pwr.replayed
  else if o = 0x30 then field 31 0 s.nv.carried.length ||| (r &&& msk 47 32)
  else r

/-- A register of the LAND block as it reads: from the seal to the next start it keeps its value (R395, R399). -/
def State.landRead (s : State) (o : Nat) : Word :=
  if s.pwr.phase = .landed then s.reg (offLand + o) else s.landComputed o

/-- The LAND block keeps the values it has at a seal. -/
def State.keepLand (s : State) : State :=
  [0, 0x18, 0x20, 0x28, 0x30].foldl (fun s o => s.setReg (offLand + o) (s.landComputed o)) s

/-- The landing is sealed (R364 step 7, R370, R378): LANDED rises and the main domain stops. -/
def State.sealLanding (s : State) : State :=
  let l := s.pwr.land
  let b := s.landSlot
  let s := { s with live := { s.live with landings := s.live.landings + 1 } }
  let sl : Slot := {
    st := .sealed, seq := s.nv.cfg.seq + 1, cause := field 2 0 l.cause.toNat ||| field 9 8 l.first,
    tbTrigger := l.tbTrigger, tbFrozen := l.tbFrozen, tbSeal := s.live.time, digest := s.imageDigest,
    epoch := s.nv.otp.epoch, ident := s.identity,
    deck := field 7 0 (l.members.toNat ||| 2 ^ s.pwr.modid.val) ||| field 15 8 l.answered.toNat ||| field 23 16 l.left.toNat,
    dsc := l.dsc, pwrgoodLow := false, strays := l.strays, abandoned := l.abandoned, image := some s.live }
  let cfg := s.sealCfg b
  let s := s.keepLand.writeSlot b 0 0x180000000 sl
  let s := s.withCfg (fun _ => cfg)
  let s := { s with std := { s.std with landed := true },
                    pwr := { s.pwr with phase := .landed, lpsOn := false, unbroken := true } }.assertPerst
  s.setPower (if l.cause.getLsbD 1 then 4 else 2)

/-- A landing whose stack failed ends unsealed, in HOLD (R374). -/
def State.endUnsealed (s : State) : State :=
  { s with pwr := { s.pwr with phase := .unsealed, lpsOn := false, stackHold := true } }.setPower 4

end Sys2Proof.Machine
end

