-- ==== Sys2Proof/Machine/MicroOps.lean ====
section
/-! DEFINITION. What a micro-routine shares with the exceptions and switches that interrupt it: the control stores (R175),
the micro-registers (R193), and the trap that saves its micro-state (R195 to R198). -/

namespace Sys2Proof.Machine

/-- A word of a patch RAM or forerunner store that no section loads: SEQ 0xF (R175). -/
def ucEmpty : BitVec 128 := BitVec.ofNat 128 (0xF * 2 ^ 44)

/-- The microword at a micro-address (R175).  The spec does not say what a routine meets that runs on from 0x87FF into 0x8800, which names
no word: DESIGN CHOICE, log 58, a word of SEQ 0xF. -/
def State.ucWord (s : State) (a : Nat) : BitVec 128 :=
  if a < 0x8000 then Config.romWord a else s.vol.store.get a ucEmpty

/-- The patch word the lowest-numbered valid match register for a ROM address names (R177, R180). -/
def State.ucMatch (s : State) (a : Nat) : Option Nat :=
  if 0x8000 ≤ a then none
  else (List.range 64).findSome? (fun n =>
    let w := s.reg (offUc + 0x100 + 8 * n)
    if bit w 15 ∧ bits w 14 0 = a then some (bits w 31 16) else none)

/-- The micro-address whose word is issued for a fetch: match registers redirect ROM addresses, but never those of a forerunner routine
(R177, R205). -/
def State.ucFetch (s : State) (kind : Bool) (a : Nat) : Nat := if kind then a else (s.ucMatch a).getD a

/-- What a pending continuation holds for END (R190); DTARGET records it as 0xFFFF (R196). -/
def ucEndMark : Nat := 0x10000

/-- Bits `hi`:`lo` of a microword. -/
def ub (w : BitVec 128) (hi lo : Nat) : Nat := (w.toNat >>> lo) % 2 ^ (hi + 1 - lo)

/-- A micro-register: U0 to U15 of the slip, U16 to U63 of the lane (R193). -/
def State.u (s : State) (lp : LpId) (r : Nat) : Word :=
  if h : r < 16 then (s.slip lp).u.get ⟨r, h⟩ else (s.lpv lp).laneU.get r 0

/-- Writes a micro-register. -/
def State.putU (s : State) (lp : LpId) (r : Nat) (v : Word) : State :=
  if h : r < 16 then s.setU lp ⟨r, h⟩ v
  else s.setLpv lp { s.lpv lp with laneU := (s.lpv lp).laneU.put r v 0 }

/-- The results of the word just issued are written (R186, R187). -/
def State.ucCommit (s : State) (lp : LpId) (m : Micro) : State × Micro :=
  let s := match m.pendU with
    | some (r, v) => s.putU lp r.val v
    | none => s
  let s := match m.pendG with
    | some (r, v) => s.setG lp r v
    | none => s
  (s, { m with pendU := none, pendG := none, pendFlags := none, flags := m.pendFlags.getD m.flags })

/-- The outstanding load, multiply or divide is written to its target (R188). -/
def State.ucLand (s : State) (lp : LpId) (m : Micro) : State × Micro :=
  match m.out with
  | some (_, r, v) => (s.putU lp r.val v, { m with out := none })
  | none => (s, m)

/-- ULOOP0 or ULOOP1 of a loop level (R198). -/
def uloopWord : Option (Nat × Nat × Nat) → Word
  | none => 0
  | some (c, st, ll) => field 16 0 c ||| field 47 32 st ||| field 53 48 ll

/-- The micro-state a trap at the next word records in the slip (R196 to R198). -/
def State.ucRecord (s : State) (lp : LpId) (m : Micro) : State :=
  let x := s.slip lp
  let out := m.loops.reverse
  s.setSlip lp { x with
    ustate := field 15 0 m.upc ||| field 16 16 1 ||| field 17 17 (b2n m.slot.isSome) ||| field 19 18 m.loops.length |||
      field 23 20 m.entry.toNat ||| field 24 24 (b2n m.kind) ||| field 47 32 (min 0xFFFF (m.slot.getD 0))
    uloop0 := uloopWord (out[0]?)
    uloop1 := uloopWord (out[1]?)
    dirty := x.dirty ||| 16 }

/-- A trap at the next word of a routine (R196): earlier results are written and its micro-state is recorded. -/
def State.ucTrap (s : State) (lp : LpId) (m : Micro) : State :=
  let (s, m) := s.ucCommit lp m
  let (s, m) := s.ucLand lp m
  let s := s.ucRecord lp m
  s.setLpv lp { s.lpv lp with micro := none }

/-- U16 to U47 read 0 at every resumption (R193). -/
def State.ucFreshU (s : State) (lp : LpId) : State :=
  s.setLpv lp { s.lpv lp with laneU := (s.lpv lp).laneU.filter (fun e => decide (48 ≤ e.1)) }

/-- SEQ is WAIT (R184). -/
def ucIsWait (w : BitVec 128) : Bool := decide (ub w 47 44 = 4)

/-- The word is the periodic one (R195): the 64th since the entry or the last sync word, held while a result is
outstanding. -/
def Micro.periodic (m : Micro) : Bool := decide (63 ≤ m.since) && m.out.isNone

/-- The word issued at a routine's next address (R177). -/
def State.ucNextWord (s : State) (m : Micro) : BitVec 128 := s.ucWord (s.ucFetch m.kind m.upc)

/-- Whether the next word of a routine is a trap point at which items 1 to 6 of R145 may be taken (R195). -/
def State.ucTrapPoint (s : State) (m : Micro) : Bool := ucIsWait (s.ucNextWord m) || m.periodic

/-- The LP at a boundary: a routine in progress stands at a trap point (R195). -/
def State.atBoundary (s : State) (lp : LpId) : Bool :=
  match (s.lpv lp).micro with
  | none => true
  | some m => s.ucTrapPoint m

/-- A routine in progress is trapped at its trap point. -/
def State.trapMicro (s : State) (lp : LpId) : State :=
  match (s.lpv lp).micro with
  | none => s
  | some m => s.ucTrap lp m

end Sys2Proof.Machine
end

