-- ==== Sys2Proof/Machine/System.lean ====
section
/-! DEFINITION. The system group (R133): control and bank registers (R56 to R70), RFL (R50, R140), LVC (R51, R134), and the
barriers (R293 to R296). -/

namespace Sys2Proof.Machine

/-! ## Control registers -/

/-- LPID (R63). -/
def State.lpid (s : State) (lp : LpId) : Word :=
  let t := (s.lp lp).twin.val
  field 5 0 lp.val ||| field 8 6 s.pwr.modid.val ||| field 17 16 (t / 16) ||| field 19 18 (t / 4 % 4)

/-- The control registers of R61, by number. -/
inductive Ctl where
  | psw
  | fpsr
  | lpid
  | time
  | tsbp (lvl : BitVec 2)
  | part
  | zx (n : Fin 16) (word : Fin 3)
deriving DecidableEq, Repr

/-- The control register a number names (R61); `none` is an illegal operation (R62). -/
def ctlOf (c : BitVec 6) : Option Ctl :=
  match c.toNat with
  | 0 => some .psw
  | 1 => some .fpsr
  | 2 => some .lpid
  | 3 => some .time
  | 4 => some (.tsbp 2)
  | 5 => some (.tsbp 1)
  | 6 => some (.tsbp 0)
  | 7 => some .part
  | n => if h : 16 ≤ n ∧ n < 64 then some (.zx ⟨(n - 16) / 3, by omega⟩ ⟨(n - 16) % 3, by omega⟩) else none

/-- The least privileged level that may read a control register (R61). -/
def Ctl.readLevel : Ctl → Nat
  | .psw => 3
  | .fpsr => 3
  | .lpid => 3
  | .time => 3
  | .tsbp l => l.toNat
  | .part => 2
  | .zx _ _ => 1

/-- The least privileged level that may write a control register; `none` is not writable (R61). -/
def Ctl.writeLevel : Ctl → Option Nat
  | .psw => some 2
  | .fpsr => some 3
  | .lpid => none
  | .time => none
  | .tsbp l => some l.toNat
  | .part => some 1
  | .zx _ _ => some 1

/-- A zone extent's word: ZONE, ABS, SIZE (R76). -/
def Ext.word (x : Ext) : Fin 3 → Word
  | 0 => x.zone
  | 1 => x.abs
  | 2 => x.size

/-- The fields of a zone extent's words (R76). -/
def Ext.setWord (x : Ext) (k : Fin 3) (v : Word) : Ext :=
  match k with
  | 0 => { x with zone := v &&& (msk 2 0 ||| msk 51 12) }
  | 1 => { x with abs := v &&& msk 51 12 }
  | 2 => { x with size := v &&& msk 51 12 }

/-- A control register as it reads (R61). -/
def State.ctlRead (s : State) (lp : LpId) : Ctl → Word
  | .psw => s.pswOf lp (s.lp lp).run
  | .fpsr => (s.slip lp).fpsr
  | .lpid => s.lpid lp
  | .time => s.live.time
  | .tsbp l => (s.lp lp).tsbp l
  | .part => (s.lp lp).part
  | .zx n k => ((s.lp lp).zx.get n).word k

/-- The defined fields of FPSR (R58). -/
def fpsrMask : Word := msk 2 0 ||| msk 13 8 ||| msk 20 16 ||| msk 28 24

/-- MFC (R61, R62). -/
def execMfc (lp : LpId) (d : Reg) (c : BitVec 6) (s : State) : Out :=
  runLp (.mfc lp d c) lp 0 (do
    match ctlOf c with
    | none => raiseExc excIllegal
    | some r =>
      requireLevel lp r.readLevel
      modify (fun s => (if r = .time then s.laneItem lp 3 (wordBytes s.live.time) else s).setG lp d (s.ctlRead lp r))
      nextPc lp 1) s

/-- The slip clearing of R67: slips 1 to 7 other than the running one; the running one goes on as an unbound context,
the tasks become SPILLED (R170), the reservation is lost (R315). -/
def State.clearSlips (s : State) (lp : LpId) : State :=
  let l := s.lp lp
  let slips := Vector.ofFn (fun k : Fin 8 =>
    if k.val = 0 then l.slips.get k
    else if k = l.run then { l.slips.get k with task := 0, unbound := true }
    else Slip.zero)
  (s.setLp lp { l with slips := slips }).setLpv lp { s.lpv lp with resv := none }

/-- A per-LP register takes its new value (R61, R65 to R67, R139). -/
def State.setCtl (s : State) (lp : LpId) (r : Ctl) (v : Word) : State :=
  let l := s.lp lp
  match r with
  | .tsbp k =>
    let v := v &&& (msk 0 0 ||| msk 51 10)
    let l := if k = 0 then { l with tsbpK := v } else if k = 1 then { l with tsbpH := v } else { l with tsbpS := v }
    s.setLp lp (l.setLatch k false)
  | .part =>
    let v := v &&& msk 5 0
    if v = l.part then s else (s.setLp lp { l with part := v }).clearSlips lp
  | .zx n k => s.setLp lp { l with zx := l.zx.set n.val ((l.zx.get n).setWord k v) n.isLt }
  | _ => s

/-- Checking is suspended (R232): the open window closes with reason DEBUG and is matched, lane A runs alone, the twin's sticky flag
and MOD_STATUS.UNCHECKED_SINCE are set.  A mismatch found then runs the window again instead. -/
def State.suspendChecking (s : State) (lp : LpId) : State :=
  if s.retryDue lp then s.syncWin lp 12
  else
    let s := s.syncWin lp 12
    let t := (s.lp lp).twin.val
    let s := { s with live := { s.live with unchecked := s.live.unchecked ||| BitVec.ofNat 64 (2 ^ t) } }
    let s := s.setLpv lp { s.lpv lp with unchecked := true, win := none }
    s.setRegF 0x18 10 10 1

/-- MTC to PSW (R57): IE, and SS at K where the debug level allows it (R56, R545). Single step starts with the next
instruction; it suspends checking (R232). -/
def mtcPsw (lp : LpId) (s1 : Reg) : Act (State → State) := do
  requireLevel lp 2
  let s ← get
  let v := s.g lp s1
  let x := s.slip lp
  let ie := bit v 2
  let ss := if x.level = 0 ∧ s.ssAllowed (s.lp lp).run then bit v 4 else x.ss
  set ((s.setSlip lp { x with ie := ie, dirty := x.dirty ||| 16, shadow := if ie ∧ ¬ x.ie then 2 else x.shadow }).item
    lp 0x04 0 [v])
  nextPc lp 1
  pure (fun s =>
    let s := s.setSlip lp { s.slip lp with ss := ss }
    if ss ∧ ¬ x.ss ∧ ¬ (s.lpv lp).unchecked then s.suspendChecking lp else s)

/-- MTC to FPSR (R58, R60). -/
def mtcFpsr (lp : LpId) (s1 : Reg) : Act (State → State) := do
  let s ← get
  let v := s.g lp s1
  require (decide (bits v 2 0 < 5)) excIllegal
  let x := s.slip lp
  set ((s.setSlip lp { x with fpsr := v &&& fpsrMask, dirty := x.dirty ||| 16 }).item lp 0x04 1 [v &&& fpsrMask])
  nextPc lp 1
  pure id

/-- MTC (R61, R62): a per-LP register takes its value once the window has matched (R212, R213). -/
def execMtc (lp : LpId) (c : BitVec 6) (s1 : Reg) (s : State) : Out :=
  match ctlOf c with
  | some .psw => runLpPost (.mtc lp c s1) lp 0 (mtcPsw lp s1) s
  | some .fpsr => runLpPost (.mtc lp c s1) lp 0 (mtcFpsr lp s1) s
  | some r =>
    runLpSync (.mtc lp c s1) lp 0 8 (do
      match r.writeLevel with
      | none => raiseExc excIllegal
      | some lvl =>
        requireLevel lp lvl
        let s ← get
        let v := s.g lp s1
        modify (fun s => s.item lp 0x04 c.toNat [v])
        nextPc lp 1
        pure (fun s => s.setCtl lp r v)) s
  | none => runLp (.mtc lp c s1) lp 0 (raiseExc excIllegal) s

/-- MTB (R70). -/
def execMtb (lp : LpId) (b : BankNo) (s1 : Reg) (s : State) : Out :=
  runLp (.mtb lp b s1) lp 0 (do
    requireLevel lp 2
    modify (fun s => s.setB lp b (s.g lp s1) (s.g lp (Reg.succ s1)))
    nextPc lp 1) s

/-- MFB (R70). -/
def execMfb (lp : LpId) (d : Reg) (b : BankNo) (s : State) : Out :=
  runLp (.mfb lp d b) lp 0 (do
    let s ← get
    let x := (s.slip lp).b.get b
    set ((s.setG lp d x.lo).setG lp (Reg.succ d) x.hi)
    nextPc lp 1) s

/-! ## RFL and LVC -/

/-- The PSW fields an RFL at level `lvl` into slip `k` restores (R140): LEVEL, IE, and SS where the debug level allows it (R545). -/
def State.rflPsw (s : State) (lvl : BitVec 2) (k : Fin 8) (psw : Word) : Word :=
  psw &&& (msk 2 0 ||| if lvl = 0 ∧ s.ssAllowed k then msk 4 4 else 0)

/-- The slip an RFL at level `lvl` restores (R140). -/
def State.rflSlip (s : State) (lp : LpId) (lvl : BitVec 2) (d : List Byte) : Fin 8 :=
  if lvl = 0 then ⟨bits (leWord ((d.drop 0x318).take 8)) 19 17 % 8, by omega⟩ else (s.lp lp).run

/-- What RFL restores once it has retired (R140, R163, R164, R166, R173, R233): the slip, its control fields, the latch of
the level it ran at; at K the slip TSB_TAG names runs. -/
def State.rflRestore (s : State) (lp : LpId) (lvl : BitVec 2) (d : List Byte) : State :=
  let k := s.rflSlip lp lvl d
  let psw := s.rflPsw lvl k (leWord ((d.drop 0x308).take 8))
  let changed := decide (k ≠ (s.lp lp).run)
  let s := if changed then s.stopRun lp else s
  let l := s.lp lp
  let old := l.slips.get k
  let x := slipOfTsb old d
  let x := { x with fpsr := x.fpsr &&& fpsrMask, level := BitVec.ofNat 2 (bits psw 1 0), ie := bit psw 2, ss := bit psw 4,
                    dirty := 31, latch := old.latch, waiting := false, shadow := 1,
                    unbound := old.unbound || (decide (lvl = 0 ∧ k.val ≠ 0 ∧ old.task = 0)) }
  let dec : BitVec 2 := if changed ∧ l.decision = 0 then 1 else l.decision
  let s := s.setLp lp ({ l with slips := l.slips.set k.val x k.isLt, run := k, decision := dec }.setLatch lvl false)
  let v := s.lpv lp
  if lvl ≠ 0 then s
  else if bit psw 4 then (if v.unchecked then s else s.suspendChecking lp)
  else if v.halted then s
  else s.setLpv lp { v with unchecked := false }

/-- The signature items of an RFL (R210): every register it writes. -/
def State.rflItems (s : State) (lp : LpId) (lvl : BitVec 2) (d : List Byte) : State :=
  let w (o : Nat) : Word := leWord ((d.drop o).take 8)
  let add (s : State) (n kind o step : Nat) : State :=
    (List.range n).foldl (fun s i => s.item lp kind i [w (o + step * i)]) s
  let s := add s 32 0x01 0 8
  let s := add s 32 0x02 0x100 8
  let s := (List.range 16).foldl (fun s i => s.item lp 0x03 i [w (0x200 + 16 * i), w (0x208 + 16 * i)]) s
  let s := s.item lp 0x04 0 [s.rflPsw lvl (s.rflSlip lp lvl d) (w 0x308)]
  let s := s.item lp 0x04 1 [w 0x310 &&& fpsrMask]
  (add s 16 0x05 0x380 8).item lp 0x20 0 [w 0x300]

/-- RFL (R50, R140): its window closes after it with reason LEVEL (R212). -/
def execRfl (lp : LpId) (s : State) : Out :=
  runLpPost (.rfl lp) lp 0 (do
    requireLevel lp 2
    let s ← get
    let lvl := (s.slip lp).level
    let tb := (s.lp lp).tsbp lvl
    let z := bits tb 51 10 * 1024
    if ¬ bit tb 0 then throw (.lock z)
    else match s.readBlock lp lvl z 1024 with
      | .wait => throw .stall
      | .error a s => do set s; throw (.lock a)
      | .ok d s =>
        set s
        require (decide (lvl.toNat ≤ bits (leWord ((d.drop 0x308).take 8)) 1 0)) excPrivileged
        modify (fun s => s.rflItems lp lvl d)
        pure (fun s =>
          let s' := s.closeWin lp 3
          if s.retriedTo s' lp then s' else s'.rflRestore lp lvl d)) s

/-- The targets LVC may name from a level (R51). -/
def lvcAllowed (cur target : BitVec 2) : Bool :=
  if cur = 3 then decide (target = 2)
  else if cur = 2 then decide (target = 1 ∨ target = 0)
  else if cur = 1 then decide (target = 0)
  else false

/-- LVC: an exception entry into the target level, saved PC the next instruction (R51, R134, R141). -/
def execLvc (lp : LpId) (target : BitVec 2) (service : BitVec 16) (s : State) : Out :=
  runLp (.lvc lp target service) lp 0 (do
    let s ← get
    require (lvcAllowed (s.slip lp).level target) excIllegal
    nextPc lp 1
    raiseExc { excOf 0x0B 0 0 0 with target := some target }) s

/-! ## Barriers -/

/-- A barrier that has stores of its own before it waits for them: its window closes with `reason` and is matched. -/
def barrier (i : Instr) (lp : LpId) (reason : Nat) (body : Act Unit) (s : State) : Out :=
  runLpSync i lp 0 reason (do body; nextPc lp 1; pure id) s

/-- FENCE (R293, R294): every earlier access is performed before it ends.  A store of its own window has the window close; those of
the windows before it leave as these match. -/
def execFence (lp : LpId) (s : State) : Out :=
  .next (s.runWith lp (encode (.fence lp)).length (iwordOf (.fence lp)) 0 (do
    issueCheck (.fence lp) lp
    nextPc lp 1) (fun _ s =>
      if s.ownStores lp then finSync lp 0 id s
      else
        let s := s.retire lp
        let s' := s.matchClosed lp
        if s.retriedTo s' lp ∨ s'.released lp then some s' else none))

/-- DSYNC (R295): its window closes with reason SYNC, and its stores leave the gangway store buffer. -/
def execDsync (lp : LpId) (s : State) : Out := barrier (.dsync lp) lp 2 (pure ()) s

/-- The report level of a bus error met at a level (R144). -/
def reportLevel (lvl : BitVec 2) : BitVec 2 := if 2 ≤ lvl.toNat then 2 else lvl

/-- The BUS_DEFERRED exception of a record (R141, R144). -/
def excDeferred (d : Deferred) : Exc :=
  { excOf 0x07 (min d.count 0xFFFF) d.addr d.finfo with target := some d.level, sync := false }

/-- The recorded errors of a report level are taken into a report. -/
def State.dropDeferred (s : State) (lp : LpId) (lvl : BitVec 2) : State :=
  s.setLp lp { s.lp lp with deferred := (s.lp lp).deferred.filter (fun d => decide (d.level ≠ lvl)) }

/-- IOSYNC (R144, R296): raises a recorded error of its own level, waits for the posted device stores, and closes its
window with reason SYNC. -/
def execIosync (lp : LpId) (s : State) : Out :=
  barrier (.iosync lp) lp 2 (do
    let s ← get
    let rl := reportLevel (s.slip lp).level
    match (s.lp lp).deferred.find? (fun d => decide (d.level = rl)) with
    | some d =>
      if (s.lp lp).latch rl then pure ()
      else do
        set (if s.retryDue lp then s else s.dropDeferred lp rl)
        raiseExc (excDeferred d)
    | none => pure ()
    let s ← get
    if (s.lpv lp).posted.isEmpty then pure () else throw .stall) s

end Sys2Proof.Machine
end

