-- ==== Sys2Proof/Machine/Timetable.lean ====
section
/-! DEFINITION. Slips, tasks, wakes and timers (R161 to R171), the exceptions taken at a boundary (R141 to R145, R158 to
R160), and processor orders (R148). -/

namespace Sys2Proof.Machine

/-! ## Boundaries -/

/-- Whether an LP can take an exception or a switch: it runs or idles, nothing holds its twin, and a routine in progress
stands at a trap point. -/
def State.asyncReady (s : State) (lp : LpId) (idleToo : Bool) : Bool :=
  let l := s.lp lp
  let v := s.lpv lp
  s.mainOn && s.pwr.lpsOn && decide (lp.val < s.lpCount) && (decide (l.st = .running) || (idleToo && decide (l.st = .idle))) &&
    v.devLoad.isNone && v.devStore.isNone && !v.halted && !v.freeze && !v.failed && v.sparing.isNone &&
    v.entering.isNone && l.abandoned.isNone && s.atBoundary lp

/-- Takes an asynchronous exception at the boundary; `clear` is what its delivery clears (R157), left alone when the
LP's windows turn out mismatched and run again; `note` is the FINFO its checkpoint remembers (R218). -/
def State.takeAsync (s : State) (lp : LpId) (e : Exc) (note : Word) (clear : State → State) : State :=
  let s := s.trapMicro lp
  if s.retryDue lp then s.syncWin lp 4
  else
    let e := { e with pc := (s.slip lp).pc }
    let s := (clear s).laneItem lp 4 [e.cls]
    let s := (s.setLpv lp { s.lpv lp with items := [] }).syncWin lp 4
    (s.entryWin lp { e with finfo := note }).saveEnter lp e 0

/-! ## Events -/

/-- Every wake and interrupt delivered to an LP sets the wake latches of slip 0 and of its unbound contexts, and ends their waits in
TTWAIT (R163). -/
def State.latchAll (s : State) (lp : LpId) : State :=
  let l := s.lp lp
  let slips := Vector.ofFn (fun k : Fin 8 =>
    let x := l.slips.get k
    if k.val = 0 ∨ x.unbound then { x with latch := true, waiting := false } else x)
  s.setLp lp { l with slips := slips }

/-- Clears PEND at a delivery (R157). -/
def State.clearPend (s : State) (n : Nat) : State := s.setRegF (offEvt + 8 * n) 1 1 0

/-- An interrupt is delivered: its source's PEND is cleared; one held since a retry is held no more (R221). -/
def State.delivered (s : State) (lp : LpId) (x : Irq) : State :=
  match x.held with
  | some e => s.setLp lp { s.lp lp with held := (s.lp lp).held.erase e }
  | none => (s.clearPend x.src).latchAll lp

/-- INTERRUPT: the first deliverable interrupt is taken (R158, R160, R221). -/
def execInterrupt (lp : LpId) (s : State) : Out :=
  .next (
    if ¬ s.asyncReady lp true ∨ s.asyncItem lp ≠ 0 then s
    else match s.irqNext lp with
    | none => s
    | some x =>
      s.takeAsync lp (s.asyncExc lp 0x0C x.src 0 (BitVec.ofNat 2 x.lvl) false) 0 (fun s => s.delivered lp x))

/-- BUS_DEFERRED at a boundary (R144). -/
def execBusDeferred (lp : LpId) (s : State) : Out :=
  .next (
    if ¬ s.asyncReady lp false ∨ s.asyncItem lp = 1 then s
    else match s.deferredDue lp with
    | none => s
    | some d =>
      s.takeAsync lp { excDeferred d with iword := s.asyncWord lp true } d.finfo (fun s => s.dropDeferred lp d.level))

/-- SINGLE_STEP after a retired instruction (R56, R141). -/
def execSingleStep (lp : LpId) (s : State) : Out :=
  .next (
    if ¬ s.asyncReady lp false ∨ s.asyncItem lp ≠ 3 then s
    else s.takeAsync lp (s.asyncExc lp 0x0D 0 0 0 true) 0 (fun s => s.setLp lp { s.lp lp with stepDue := false }))

/-- The least recently run slip among those that hold a bound task, the interrupted one counting as stopping now (R141); of several that
stopped equally long ago the lowest-numbered (log 49). -/
def State.leastRecent (s : State) (lp : LpId) : Nat :=
  let cand := (List.finRange 8).filter (fun k => decide ((s.slipN lp k).task ≠ 0))
  let key (k : Fin 8) : Nat := if k = (s.lp lp).run then (s.lp lp).clock + 1 else s.lastRunOf lp k
  match cand.foldl (fun best k => match best with
      | none => some k
      | some b => if key k < key b then some k else some b) (none : Option (Fin 8)) with
  | some k => k.val
  | none => 0

/-- Clears or sets the fill due for a task. -/
def State.setFillDue (s : State) (lp : LpId) (t : Nat) (v : Bool) : State :=
  let l := s.lp lp
  s.setLp lp { l with tasks := l.tasks.put t { l.tasks.get t Task.none with fillDue := v } Task.none }

/-- SLIP_OVERFLOW (R141, R169). -/
def execSlipOverflow (lp : LpId) (s : State) : Out :=
  .next (
    if ¬ s.asyncReady lp true ∨ s.asyncItem lp ≠ 4 then s
    else match s.fillTask lp with
    | none => s
    | some t =>
      s.takeAsync lp (s.asyncExc lp 0x0E (t + s.leastRecent lp * 256) 0 0 false) 0 (fun s => s.setFillDue lp t false))

/-- LINES_LOST: an asynchronous machine check (R143), that of a partition whose lines a sparing lost; a MACHINE_CHECK CHECKPOINT that
is due goes first (R219). -/
def execLinesLost (lp : LpId) (s : State) : Out :=
  .next (
    if s.asyncReady lp true ∧ s.ckptDue lp then (s.trapMicro lp).ckptTake lp
    else if ¬ s.asyncReady lp false ∨ ¬ s.linesDue lp then s
    else
      let p := bits (s.lp lp).part 5 0
      match s.live.linesLost.find? (fun e => decide (e.1 = p)) with
      | none => s
      | some (_, a) =>
        s.takeAsync lp (s.asyncExc lp 0x09 3 a 2 true) 0
          (fun s => { s with live := { s.live with linesLost := s.live.linesLost.filter (fun e => decide (e.1 ≠ p)) } }))

/-- A decision point of the timetable (R164). -/
def State.decide1 (s : State) (lp : LpId) : State :=
  let l := s.lp lp
  s.setLp lp { l with decision := if l.decision = 0 then 1 else l.decision }

/-- An IDLE LP runs again where its own slip became ready (R164). -/
def State.unidle (s : State) (lp : LpId) : State :=
  let l := s.lp lp
  if l.st ≠ .idle then s
  else if (l.run = 0 ∧ ¬ (s.slip lp).waiting) ∨ (l.run ≠ 0 ∧ s.choose lp false = some l.run) then
    s.setLp lp { l with st := .running }
  else s

/-- WAKE_DELIVERY of a source in mode 1 (R159, R163, R164, R169); an LP that is being spared is STOPPED (R223). -/
def execWakeDelivery (source : Fin 4096) (s : State) : Out :=
  .next (
    let w := s.evt source.val
    let lp : LpId := ⟨bits w 10 5, by unfold bits; omega⟩
    let l := s.lp lp
    let t := bits w 17 12
    let e := l.tasks.get t Task.none
    if ¬ s.mainOn ∨ ¬ s.evtPending source.val true lp ∨ t = 0 ∨ s.stateOf lp ≠ .running ∧ s.stateOf lp ≠ .idle then s
    else if bits l.part 5 0 ≠ bits w 23 18 ∨ ¬ e.valid ∨ e.part.toNat ≠ bits w 23 18 then s
    else
      let s := s.clearPend source.val
      let k := s.slipOfTask lp t
      let s := s.setLp lp { l with tasks := l.tasks.put t { e with wake := true, fillDue := e.fillDue || k.isNone } Task.none }
      let s := match k with
        | some k => s.setSlipN lp k { s.slipN lp k with waiting := false }
        | none => s
      ((s.latchAll lp).decide1 lp).unidle lp)

/-- SLIP_SWITCH (R164): at a boundary the timetable runs another slip, or idles the LP. -/
def execSlipSwitch (lp : LpId) (s : State) : Out :=
  .next (
    if ¬ s.asyncReady lp true ∨ s.asyncItem lp ≠ 0 ∨ (s.irqNext lp).isSome ∨ ¬ s.switchDue lp then s
    else
      let s := s.trapMicro lp
      if s.retryDue lp then s.syncWin lp 9
      else
        let s := s.syncWin lp 9
        let next := s.choose lp (decide ((s.lp lp).decision = 2))
        let s := s.setLpv lp { s.lpv lp with resv := none, win := none }
        let s := s.setLp lp { s.lp lp with decision := 0 }
        match next with
        | none => s.setLp lp { s.lp lp with st := .idle }
        | some k =>
          let s := s.stopRun lp
          (s.setLp lp { s.lp lp with run := k, st := .running }).countLp lp 0x0B 1)

/-! ## Fills and spills -/

/-- A slip filled from a TSB (R167): LEVEL as saved when S or P and S otherwise, IE as saved, SS 0, all dirty bits 0; READY
when the task's wake bit is 1. -/
def fillSlip (old : Slip) (t : Nat) (wake : Bool) (d : List Byte) : Slip :=
  let x := slipOfTsb old d
  let psw := leWord ((d.drop 0x308).take 8)
  { x with fpsr := x.fpsr &&& fpsrMask, level := if bits psw 1 0 ≤ 1 then 2 else BitVec.ofNat 2 (bits psw 1 0),
           ie := bit psw 2, ss := false, dirty := 0, task := BitVec.ofNat 6 t, unbound := false, latch := false,
           waiting := !wake, shadow := 0 }

/-- The slip takes the task; a fill is a decision point (R164). -/
def State.fillInto (s : State) (lp : LpId) (k : Fin 8) (t : Nat) (d : List Byte) : State :=
  let e := (s.lp lp).tasks.get t Task.none
  (((s.setSlipN lp k (fillSlip (s.slipN lp k) t e.wake d)).setFillDue lp t false).countLp lp 0x0B 1).decide1 lp

/-- Whether a TSB's tag has FORMAT 0x05 (R92, R167). -/
def tsbFormatOk (d : List Byte) : Bool := decide (bits (leWord ((d.drop 0x318).take 8)) 7 0 = 5)

/-- HARDWARE_FILL (R167, R169): a failing read, or another FORMAT, is MACHINE_CHECK FILL_FAILED to K, and waits while
LATCH_K is set (R139); a line with an open transaction is waited for. -/
def execHardwareFill (lp : LpId) (s : State) : Out :=
  .next (
    if ¬ s.asyncReady lp true then s
    else match s.fillTask lp, s.lowestFree lp with
    | some t, some k =>
      if s.retryDue lp then s.syncWin lp 9
      else
        let s1 := s.syncWin lp 9
        let s1 := s1.setLpv lp { s1.lpv lp with resv := none }
        let failed (s2 : State) : State :=
          if (s.lp lp).latK then s
          else s2.takeAsync lp (s2.asyncExc lp 0x09 5 0 0 true) (BitVec.ofNat 64 t) (fun s => s.setFillDue lp t false)
        match s1.readBlock lp 2 ((s.lp lp).tasks.get t Task.none).addr.toNat 1024 with
        | .wait => s
        | .ok d s2 => if tsbFormatOk d then (s2.fillInto lp k t d).unidle lp else failed s2
        | .error _ s2 => failed s2
    | _, _ => s)

/-- The pieces of a task's TSB, through the partition's zone extents; a failing translation is a ZONE_CHECK (R162, R167),
whose FINFO names bank 0 (log 48). -/
def State.taskPieces (s : State) (lp : LpId) (z : Nat) (k : AKind) : Except Exc (List (Nat × Nat)) :=
  match translatePieces (s.lp lp).zx k true (piecesOf z 1024) with
  | .error (za, re, ex, pc) => .error (excZone 0 k 7 1024 za re ex pc)
  | .ok l => .ok l

/-- SPILL (R166, R167): the dirty groups and the tag go to the task's TSB, the slip is free once the window has matched. -/
def execSpill (lp : LpId) (n : Fin 8) (s : State) : Out :=
  runLpSync (.spill lp n) lp 16 8 (do
    let s ← get
    require (decide (n.val ≠ 0 ∧ n ≠ (s.lp lp).run) && !s.slipFree lp n) excIllegal
    requireLevel lp 2
    let x := s.slipN lp n
    if x.unbound then do
      nextPc lp 1
      pure id
    else do
      let e := (s.lp lp).tasks.get x.task.toNat Task.none
      let l ← liftExc (s.taskPieces lp e.addr.toNat .write)
      let words := (((List.range 5).filter (fun g => x.dirty.getLsbD g)).map (tsbGroup s lp n)).flatten ++
        [(0x318, tsbTag x.dirty true n)]
      set (s.storeWords lp (pieceAddr l) (s.slip lp).level words)
      nextPc lp 1
      pure (fun s => s.setSlipN lp n { s.slipN lp n with task := 0, dirty := 0, waiting := false })) s

/-- FILL (R167). -/
def execFill (lp : LpId) (s1 : Reg) (n : Fin 8) (s : State) : Out :=
  runLpSync (.fill lp s1 n) lp 0 8 (do
    let s ← get
    let t := (s.g lp s1).toNat
    let e := (s.lp lp).tasks.get t Task.none
    require (s.slipFree lp n && decide (1 ≤ t ∧ t ≤ 63) && e.valid && (s.slipOfTask lp t).isNone &&
      decide (e.part.toNat = bits (s.lp lp).part 5 0)) excIllegal
    requireLevel lp 2
    let l ← liftExc (s.taskPieces lp e.addr.toNat .read)
    match s.firstBad false 1 (tsbInfo .read) l with
    | some (a, fi) => raiseExc (excBus a fi)
    | none =>
      let d ← readCached lp false (tsbInfo .read) l
      require (tsbFormatOk d) { excOf 0x09 5 0 0 with target := some 0 }
      nextPc lp 1
      pure (fun s => s.fillInto lp n t d)) s

/-- RDSLIP (R168). -/
def execRdslip (lp : LpId) (d : Reg) (n : Fin 8) (r : Fin 64) (s : State) : Out :=
  runLp (.rdslip lp d n r) lp 0 (do
    let s ← get
    require (decide (n.val ≠ 0 ∨ (s.slip lp).level = 0)) excPrivileged
    let x := s.slipN lp n
    let v : Word := if s.slipFree lp n then 0
      else if h : r.val < 32 then x.g.get ⟨r.val, h⟩ else x.f.get ⟨r.val - 32, by omega⟩
    set (s.setG lp d v)
    nextPc lp 1) s

/-- What TTBIND makes of an entry (R162); `none` leaves the table as it is and writes 0. -/
def State.ttbind (s : State) (lp : LpId) (t : Nat) (v : Word) : Option Task :=
  let e := (s.lp lp).tasks.get t Task.none
  let part : BitVec 6 := BitVec.ofNat 6 (bits (s.lp lp).part 5 0)
  let addr := v &&& msk 51 10
  let res := (s.slipOfTask lp t).isSome
  if ¬ (1 ≤ t ∧ t ≤ 63) ∨ (e.valid ∧ e.part ≠ part) ∨ (res ∧ (¬ bit v 3 ∨ e.addr ≠ addr)) ∨
     bits v 9 4 ≠ 0 ∨ bits v 63 52 ≠ 0 then none
  else if ¬ bit v 3 then some Task.none
  else some ⟨true, part, addr, BitVec.ofNat 3 (bits v 2 0), e.valid && e.wake, e.valid && e.fillDue, if e.valid then e.lastRun else 0⟩

/-- TTBIND (R162). -/
def execTtbind (lp : LpId) (d s1 s2 : Reg) (s : State) : Out :=
  runLpSync (.ttbind lp d s1 s2) lp 0 8 (do
    requireLevel lp 2
    let s ← get
    let t := (s.g lp s1).toNat
    let r := s.ttbind lp t (s.g lp s2)
    set (s.setG lp d (b2w r.isSome))
    nextPc lp 1
    pure (fun s => match r with
      | some e => s.setLp lp { s.lp lp with tasks := (s.lp lp).tasks.put t e Task.none }
      | none => s)) s

/-- Whether a wake waits for the running slip: its task's wake bit, or the wake latch in slip 0 and in an unbound context
(R163, R165). -/
def State.wakeWaits (s : State) (lp : LpId) : Bool :=
  let x := s.slip lp
  if x.task = 0 then x.latch else ((s.lp lp).tasks.get x.task.toNat Task.none).wake

/-- The wake is consumed (R165). -/
def State.takeWake (s : State) (lp : LpId) : State :=
  let x := s.slip lp
  let l := s.lp lp
  if x.task = 0 then s.setSlip lp { x with latch := false }
  else s.setLp lp { l with tasks := l.tasks.put x.task.toNat { l.tasks.get x.task.toNat Task.none with wake := false } Task.none }

/-- TTWAIT (R163, R165): with a wake it retires and consumes it; with none the slip waits at it. -/
def execTtwait (lp : LpId) (s : State) : Out :=
  runLpSync (.ttwait lp) lp 0 8 (do
    let s ← get
    if s.wakeWaits lp then do
      nextPc lp 1
      pure (fun s => s.takeWake lp)
    else throw .wait) s

/-- TTYIELD (R165). -/
def execTtyield (lp : LpId) (s : State) : Out :=
  runLpSync (.ttyield lp) lp 0 8 (do
    nextPc lp 1
    pure (fun s => s.setLp lp { s.lp lp with decision := 2 })) s

/-- Whether SIGNAL at a level may raise a source (R161). -/
def State.mayRaise (s : State) (lp : LpId) (n : Nat) : Bool :=
  s.raisable n && decide (n < 512) &&
    (decide ((s.slip lp).level.toNat ≤ 1) ||
      (decide (n < 64 ∨ 256 ≤ n) && decide (bits (s.evt n) 23 18 = bits (s.lp lp).part 5 0)))

/-- SIGNAL (R161, R303). -/
def execSignal (lp : LpId) (d s1 : Reg) (s : State) : Out :=
  runLpSync (.signal lp d s1) lp 0 8 (do
    requireLevel lp 2
    let s ← get
    let n := (s.g lp s1).toNat
    let ok := s.mayRaise lp n
    set (s.setG lp d (b2w ok))
    nextPc lp 1
    pure (fun s => if ok then s.raise n else s)) s

/-- Whether an LP's timer has reached its compare value and fires (R153), in RUN. -/
def State.timerDue (s : State) (lp : LpId) : Bool :=
  let t := (s.lp lp).timer
  decide (s.powerState = 0 ∧ lp.val < s.lpCount ∧ t ≠ 0 ∧ t ≤ s.live.time) && s.mainOn

/-- LP_TIMER takes a value; a compare value already reached fires all the same (R153). -/
def State.timerWrite (s : State) (lp : LpId) (v : Word) : State :=
  let s := if s.timerDue lp then s.raise (64 + lp.val) else s
  s.setLp lp { s.lp lp with timer := v }

/-- TIMER (R161, R303). -/
def execTimer (lp : LpId) (s1 : Reg) (s : State) : Out :=
  runLpSync (.timer lp s1) lp 0 8 (do
    requireLevel lp 2
    let s ← get
    let v := s.g lp s1
    nextPc lp 1
    pure (fun s => s.timerWrite lp v)) s

/-! ## Events, timers and orders by register -/

/-- A write of EVT_RAISE by keel or host (R155, R157). -/
def State.evtRaise (s : State) (v : Word) : State := if bits v 63 12 = 0 then s.raise (bits v 11 0) else s

/-- EVT_RAISE (R155). -/
def execEvtRaise (src : Src) (v : Word) (s : State) : Out := .next (if s.srcMay src 1 then s.evtRaise v else s)

/-- LP_TIMER_WRITE (R149, R153). -/
def execLpTimerWrite (src : Src) (lp : LpId) (v : Word) (s : State) : Out :=
  .next (if s.srcMay src 1 ∧ lp.val < s.lpCount then s.timerWrite lp v else s)

/-- LP_TIMER_FIRE (R153): a timer whose compare value the timebase has reached raises its source. -/
def execLpTimerFire (lp : LpId) (s : State) : Out :=
  .next (if s.timerDue lp then (s.setLp lp { s.lp lp with timer := 0 }).raise (64 + lp.val) else s)

/-- The result of a processor order in LP_STATE.ORDER (R148, R150). -/
def State.ordered (s : State) (lp : LpId) (ok : Bool) : State := s.setLp lp { s.lp lp with order := if ok then 1 else 2 }

/-- The orders of R148 to one LP; while it moves to a spare twin they are rejected (R223), and START and RESTART while an accepted
RESTART still waits for its entry record (log 54).  A RESTART that locks up enters no exception: LP_LOCK's CLASS, SUB and FROM read 0
(log 54). -/
def State.lpOrder (s : State) (lp : LpId) (v : Nat) : State :=
  let l := s.lp lp
  let x := s.lpv lp
  let moving := x.failed || x.sparing.isSome
  if v = 0 then s
  else if v = 1 then
    if (l.st = .running ∨ l.st = .idle) ∧ ¬ moving then (s.setLpv lp { x with freeze := true }).ordered lp true
    else s.ordered lp false
  else if v = 2 then
    if l.st = .stopped ∧ ¬ moving ∧ x.entering.isNone then
      (s.setLp lp { l with st := if (s.slip lp).waiting then .idle else .running }).ordered lp true
    else s.ordered lp false
  else if v = 3 then
    if (l.st = .locked ∨ l.st = .stopped) ∧ ¬ moving ∧ x.entering.isNone ∧ bit l.tsbpK 0 then
      let s := s.ordered lp true
      let s := s.setLp lp { s.lp lp with latS := false, latH := false, latK := false, abandoned := none }
      (s.setLpv lp { x with resv := none, win := none, micro := none, entering := some (0, excOf 0 0 0 0, 0) }).tryEnter lp
    else s.ordered lp false
  else s.ordered lp false

/-- STOP (R148). -/
def execStop (src : Src) (lp : LpId) (s : State) : Out :=
  .next (if s.srcKeel src ∧ lp.val < s.lpCount then s.lpOrder lp 1 else s)

/-- START (R148). -/
def execStart (src : Src) (lp : LpId) (s : State) : Out :=
  .next (if s.srcKeel src ∧ lp.val < s.lpCount then s.lpOrder lp 2 else s)

/-- RESTART (R148). -/
def execRestart (src : Src) (lp : LpId) (s : State) : Out :=
  .next (if s.srcKeel src ∧ lp.val < s.lpCount then s.lpOrder lp 3 else s)

/-- UC_FAULT_CLEAR: writing 1 to UC_FAULT.VALID clears it and COUNT (R178, R200). -/
def State.ucFaultClear (s : State) : State := (s.setRegF (offUc + 8) 0 0 0).setRegF (offUc + 8) 47 32 0

/-- UC_FAULT_CLEAR (R200). -/
def execUcFaultClear (src : Src) (s : State) : Out := .next (if s.srcMay src 1 then s.ucFaultClear else s)

end Sys2Proof.Machine
end

