-- ==== Sys2Proof/Machine/Checked.lean ====
section
/-! DEFINITION. Checked execution as the comparator, the maintenance ports and the collector see it: windows compared
(R211, R220 to R222), sparing (R223 to R227), debug halts (R232, R233), freezing (R236). -/

namespace Sys2Proof.Machine

/-! ## The collector's log -/

/-- One log entry (R559, R581): it raises FAULT_NOTICE; LOG_WRAP follows R574. -/
def State.fcLog (s : State) (src : Nat) (inj : Bool) (action count : Nat) (detail : BitVec 32) : State :=
  let h := s.regF (offFc + 0x28) 7 0
  let n := s.regF (offFc + 0x28) 39 8
  let o := offFc + 0x1000 + 16 * h
  let s := s.setReg o (field 10 0 src ||| field 11 11 (b2n inj) ||| field 15 12 action ||| field 23 16 count |||
    field 63 32 detail.toNat)
  let s := s.setReg (o + 8) s.live.time
  let s := s.setReg (offFc + 0x28) (field 7 0 (h + 1) ||| field 39 8 (min (n + 1) 0xFFFFFFFF))
  let s := if 256 ≤ s.std.logSince then s.setRegF offFc 32 32 1 else s
  { s with std := { s.std with logSince := s.std.logSince + 1 } }.raise 131

/-- A log entry that no severe event causes: COUNT and DETAIL are free (log 18). -/
def State.fcLogFree (s : State) (src action : Nat) : State :=
  s.tick1.fcLog src false action (Config.freeNat s.free % 256) ((Config.freeWord s.free).truncate 32)

/-! ## Spares -/

/-- A twin whose LP exists. -/
def State.twinBusy (s : State) (t : Nat) : Bool := s.lpsAll.any (fun n => decide ((s.lp n).twin.val = t))

/-- A usable spare (R223, R226): bound to no LP, not retired, not fenced, not taken by another sparing. -/
def State.usableSpare (s : State) (t : Fin 64) : Bool :=
  !s.twinBusy t.val && !s.nv.cfg.retired.getLsbD t.val &&
    !s.std.fenced.any (fun f => decide (f.1 = .twin ∧ f.2.1 = t.val)) &&
    !s.lpsAll.any (fun n => match (s.lpv n).sparing with | some x => decide (x.spare = some t) | none => false)

/-- The spare chosen for a failed twin (R223 step 2): same cluster, same die, lowest index. -/
def State.chooseSpare (s : State) (t : Fin 64) : Option (Fin 64) :=
  let l := (List.finRange 64).filter (fun x => s.usableSpare x)
  match l.find? (fun x => decide (x.val / 4 = t.val / 4)) with
  | some x => some x
  | none => match l.find? (fun x => decide (x.val / 16 = t.val / 16)) with
    | some x => some x
    | none => l.head?

/-- A twin enters the retire map (R39). -/
def State.retireTwin (s : State) (t : Nat) : State :=
  s.withCfg (fun c => { c with retired := c.retired ||| BitVec.ofNat 64 (2 ^ t) })

/-- Word 0 of the LP's mismatch record shows the reaction and the spare (R224, R582). -/
def State.mmReaction (s : State) (lp : LpId) (reaction : Nat) (spare : Option (Fin 64)) : State :=
  let o := offFc + 0x400 + 0x40 * (s.lpv lp).mmIdx
  let s := s.setRegF o 30 28 reaction
  s.setRegF o 23 16 (match spare with | some x => x.val | none => 0xFF)

/-- The move of an LP whose twin has failed begins (R223); `false`: no usable spare exists and the reaction is HOLD
(R226). -/
def State.startSparing (s : State) (lp : LpId) (fence : Bool) (cls : Nat) : Bool × State :=
  match s.chooseSpare (s.lp lp).twin with
  | none => (false, s.mmReaction lp 4 none)
  | some x =>
    let s := s.mmReaction lp (if fence then 3 else 2) (some x)
    (true, s.setLpv lp { s.lpv lp with
      sparing := some ⟨(s.lp lp).twin, some x, fence, cls, false, false, [], (s.lpv lp).mmIdx⟩ })

/-- The LP that runs on a twin. -/
def State.lpOfTwin (s : State) (t : Nat) : Option LpId := s.lpsAll.find? (fun n => decide ((s.lp n).twin.val = t))

/-! ## Windows -/

/-- A SPARE or FENCE of class 0 or 2 stops the twin at this boundary as if the window that follows had failed twice
(R560, R562).  `ask` is the source, 2048 higher for an injected event. -/
def State.stopAsk (s : State) (lp : LpId) (fence : Bool) (ask : Nat) : State :=
  let src := ask % 2048
  let inj := decide (2048 ≤ ask)
  let n := s.regF (offFc + 0x4000 + 8 * src) 15 8
  let s := (s.trapMicro lp).syncWin lp 0
  let s := s.mmRecord lp (Win.fresh (s.ckptOf lp none)) 0
  let s := s.setLpv lp { s.lpv lp with ask := none, failed := true, fails := 0, win := none, resv := none }
  let mm := BitVec.ofNat 32 (s.lpv lp).mmIdx
  match s.startSparing lp fence (src / 0x40) with
  | (true, s) => s.fcLog src inj (if fence then 3 else 2) n mm
  | (false, s) => (s.fcLog src inj 4 n mm).hold

/-- WINDOW_CLOSE (R211, R560): at a boundary a window that has its length closes with COUNT, and a SPARE or FENCE that
waits for the boundary stops the twin. -/
def execWindowClose (lp : LpId) (s : State) : Out :=
  .next (
    let v := s.lpv lp
    if ¬ s.mainOn ∨ ¬ s.pwr.lpsOn ∨ s.lpCount ≤ lp.val ∨ v.failed ∨ v.sparing.isSome ∨ ¬ s.atBoundary lp then s
    else match v.ask with
      | some (f, src) => if s.askDue lp then s.stopAsk lp f src else s
      | none => match v.win with
        | some w => if s.windowLength ≤ w.retired then s.closeWin lp 0 else s
        | none => s)

/-- WINDOW_COMPARE (R220, R222): the signatures of the closed window differ by `diff`, or by one bit where an injected error
is due (R570). -/
def execWindowCompare (lp : LpId) (diff : Word) (s : State) : Out :=
  .next (
    if (s.lpv lp).closed.isNone ∨ ¬ (s.mainOn ∨ s.pwr.phase = .landing) then s
    else
      let (d, s) := s.takeInject lp
      s.compareWin lp (if diff = 0 then d else diff))

/-! ## Freezing -/

/-- An LP moves to another twin (R42, R223, R234, R246, R382): the L2's register, lock tags and UNCHECKED_SINCE flag go with it,
RELOCATED is raised and TWIN_SPARED set. -/
def State.moveTwin (s : State) (lp : LpId) (t : Fin 64) : State :=
  let f := (s.lp lp).twin.val
  let s := s.setLp lp { s.lp lp with twin := t }
  let s := s.setReg (cohReg t.val) (s.reg (cohReg f))
  let s := { s with live := { s.live with
    lockTags := s.live.lockTags.map (fun (e : Nat × Nat × Nat) => if e.1 = f then (t.val, e.2) else e)
    unchecked := if s.live.unchecked.getLsbD f then s.live.unchecked ||| BitVec.ofNat 64 (2 ^ t.val) else s.live.unchecked } }
  (s.raise 130).modEvent 0

/-- An LP is bound to the spare that takes the place of its failed twin, which is fenced or retired (R223, R227). -/
def State.bindSpare (s : State) (lp : LpId) (x : Sparing) (t : Fin 64) : State :=
  let f := x.failed.val
  let s := if x.fence then
      ({ s with std := { s.std with fenced := s.std.fenced ++ [(UnitKind.twin, f, x.cls)] } }.modEvent 1)
    else s.retireTwin f
  s.moveTwin lp t

/-- An LP has stopped for a landing; with a sparing in progress it lands bound to the spare chosen (R227). -/
def State.landStop (s : State) (lp : LpId) : State :=
  let s := match (s.lpv lp).sparing with
    | some x => match x.spare with
      | some t => s.bindSpare lp x t
      | none => s
    | none => s
  (s.setLpv lp { s.lpv lp with frozen := true, sparing := none }).noteFrozen

/-- LP_STOP (R236): the open window closes with FREEZE, both windows are compared, and the LP stops: for a landing where it
stands, for an order in STOPPED; the reservation is lost (R315).  It waits until the stores of its matched windows are
performed, and for an entry record it stands at. -/
def execLpStop (lp : LpId) (s : State) : Out :=
  .next (
    let v := s.lpv lp
    let landing := decide (s.pwr.phase = .landing)
    if ¬ v.freeze ∨ v.frozen ∨ s.lpCount ≤ lp.val ∨ ¬ (s.mainOn ∨ landing) ∨ v.devLoad.isSome ∨ v.devStore.isSome ∨
       v.entering.isSome ∨ ¬ s.atBoundary lp then s
    else
      let s := if v.unchecked then s.trapMicro lp else (s.trapMicro lp).syncWin lp 11
      let s := (s.setLpv lp { s.lpv lp with resv := none, win := none, closed := none }).drainStores lp
      if ¬ s.released lp then s
      else if landing then s.landStop lp
      else (s.setLp lp { s.lp lp with st := .stopped }).setLpv lp { s.lpv lp with freeze := false })

/-! ## Sparing -/

/-- The hub extents of a partition (R406). -/
def State.hubExts (s : State) (p : Nat) : Vector Ext 16 :=
  Vector.ofFn (fun n : Fin 16 =>
    let o := offCh + 0x8000 + p * 0x180 + n.val * 0x18
    ⟨s.reg o, s.reg (o + 8), s.reg (o + 16)⟩)

/-- An extent reaches an absolute address (R76). -/
def Ext.reaches (x : Ext) (a : Nat) : Bool :=
  bit x.zone 0 && decide (bits x.abs 51 12 * 4096 ≤ a ∧ a < bits x.abs 51 12 * 4096 + bits x.size 51 12 * 4096)

/-- The partition that owns a line (R225): the lowest whose hub extents reach it. -/
def State.ownerOf (s : State) (ln : Nat) : Option Nat :=
  (List.range 64).find? (fun p => (s.hubExts p).toList.any (fun x => x.reaches (ln * 256)))

/-- Ascending lines as ranges of at most 4,096 (R583). -/
def lostRanges : List Nat → List (Nat × Nat)
  | [] => []
  | a :: r =>
    match lostRanges r with
    | (b, n) :: q => if a + 1 = b ∧ n < 4096 then (a, n + 1) :: q else (a, 1) :: (b, n) :: q
    | [] => [(a, 1)]

/-- A list without repeats in ascending order. -/
def insertAsc (x : Nat) : List Nat → List Nat
  | [] => [x]
  | y :: r => if x < y then x :: y :: r else if x = y then y :: r else y :: insertAsc x r

/-- FC_LOST's word for a range (R583). -/
def lostWord (r : Nat × Nat) : Word := field 0 0 1 ||| field 51 8 r.1 ||| field 63 52 (r.2 - 1)

/-- A line a sparing lost is poisoned at its home (R225); that of a home out of the deck is poisoned there by R277. -/
def State.loseLine (s : State) (t ln : Nat) : State :=
  match s.lineRef ln with
  | some r =>
    if r.own then s.poisonLine r ln
    else { s with mem := { s.mem with poison := s.mem.poison.put r.key true false } }.sendTo (lineModule ln) |>.setCline t ln CLine.none
  | none => s.setCline t ln CLine.none

/-- The lines a sparing lost (R225): poisoned at their homes, reported, listed, and given to the partitions that own them. -/
def State.loseLines (s : State) (x : Sparing) (lines : List Nat) : State :=
  if lines = [] then s
  else
    let s := lines.foldl (fun s ln => s.loseLine x.failed.val ln) s
    let rs := lostRanges lines
    let s := (List.range 512).foldl (fun s k =>
      s.setReg (offFc + 0x2000 + 8 * k) (match rs[k]? with | some r => lostWord r | none => 0)) s
    let o := offFc + 0x400 + 0x40 * x.mmRec
    let s := (s.setRegF o 46 32 (min lines.length 16384)).setRegF o 31 31 (b2n (decide (512 < rs.length)))
    let s := match rs.head? with | some r => s.setReg (o + 32) (lostWord r) | none => s
    let s := (List.range 64).foldl (fun s p =>
      match lines.find? (fun ln => decide (s.ownerOf ln = some p)) with
      | none => s
      | some ln =>
        let w : Word := match rs.find? (fun r => decide (r.1 ≤ ln ∧ ln < r.1 + r.2)) with | some r => lostWord r | none => 0
        { s with live := { s.live with linesLost := s.live.linesLost ++ [(p, w)] } }) s
    (List.range 16).foldl (fun s p =>
      let k := (lines.filter (fun ln => match s.ownLine ln with | some r => decide (r.port = p) | none => false)).length
      if k = 0 then s else s.report (0x150 + p)) s

/-- Whether a failed twin's dirty lines go to the cluster's L3 slice: by the slice's enable field alone (R223 step 3). -/
def State.drainsToL3 (s : State) (t : Nat) : Bool := bit (s.reg (cohReg (64 + t / 4))) 0

/-- The maintenance port writes a failed twin's dirty lines to the cluster's L3 slice, or home, and invalidates every line
(R223 step 3). -/
def State.drainTwin (s : State) (t : Nat) : State :=
  (s.vol.caches.dir.filter (fun e => decide (e.1 % 128 = t))).foldl (fun s e =>
    let ln := e.1 / 128
    let l3 := 64 + t / 4
    if e.2.st.dirty ∧ s.drainsToL3 t then
      (((s.makeRoomL3 l3 ln).setCline t ln CLine.none).moveSnoop t l3 ln).place l3 ln { e.2 with moored := false, wbk := false }
    else s.evictHome t ln) s

/-- The dirty lines of a failed twin whose homes do not accept them (R225): those of modules out of the deck, where they go home. -/
def State.refusedLines (s : State) (t : Nat) : List Nat :=
  if s.drainsToL3 t then []
  else s.vol.caches.dir.filterMap (fun e =>
    if e.1 % 128 = t ∧ e.2.st.dirty ∧ (s.lineRef (e.1 / 128)).isNone then some (e.1 / 128) else none)

/-- L2_DRAIN_DONE (R223 step 3, R225): the gangway stores of matched windows are performed, then the L2 is drained; `lost` are the lines
the port could not read. -/
def execL2DrainDone (lp : LpId) (lost : List (BitVec 44)) (s : State) : Out :=
  .next (match (s.lpv lp).sparing with
    | none => s
    | some x =>
      let s := s.drainStores lp
      if x.drained ∨ ¬ s.released lp then s
      else
        let t := x.failed.val
        let lines := (lost.map BitVec.toNat ++ s.refusedLines t).foldl (fun l ln =>
          if (s.cline t ln).st.dirty then insertAsc ln l else l) []
        let s := (s.loseLines x lines).drainTwin t
        s.setLpv lp { s.lpv lp with sparing := some { x with drained := true, lost := lines.map (BitVec.ofNat 44) } })

/-- SPARE_TWIN_READY (R223 step 4). -/
def execSpareTwinReady (lp : LpId) (s : State) : Out :=
  .next (match (s.lpv lp).sparing with
    | none => s
    | some x => s.setLpv lp { s.lpv lp with sparing := some { x with ready := true } })

/-- The LP runs on the spare (R223 steps 5 to 7) from its checkpoint, with checking on; uncorrectable words of the checkpoint make
MACHINE_CHECK CHECKPOINT due (R219).  Its posted stores and its half of a 128-bit access go on. -/
def State.rebind (s : State) (lp : LpId) (x : Sparing) (t : Fin 64) : State :=
  let s := s.bindSpare lp x t
  let v := s.lpv lp
  let s := s.setLp lp { s.lp lp with ckptDue := (s.lp lp).ckptDue ||| v.badCkpt }
  s.setLpv lp { LpVol.none with inject := v.inject, posted := v.posted, latch128 := v.latch128, stage128 := v.stage128 }

/-- STATE_TRANSFER_DONE (R223). -/
def execStateTransferDone (lp : LpId) (s : State) : Out :=
  .next (match (s.lpv lp).sparing with
    | none => s
    | some x =>
      if ¬ s.mainOn ∨ ¬ x.drained ∨ ¬ x.ready then s
      else match x.spare with
        | some t => s.rebind lp x t
        | none => s)

/-! ## Debug halts -/

/-- DEBUG_HALT (R232, R545): where the debug level allows it, the LP halts at a boundary and runs unchecked from there. -/
def execDebugHalt (lp : LpId) (s : State) : Out :=
  .next (
    let v := s.lpv lp
    let l := s.lp lp
    if ¬ s.mainOn ∨ ¬ s.pwr.lpsOn ∨ s.lpCount ≤ lp.val ∨ (l.st ≠ .running ∧ l.st ≠ .idle) ∨ v.halted ∨ v.freeze ∨ v.failed ∨
       v.sparing.isSome ∨ v.devLoad.isSome ∨ v.devStore.isSome ∨ ¬ s.atBoundary lp ∨ ¬ s.ssAllowed l.run then s
    else if s.retryDue lp then s.syncWin lp 12
    else
      let s := (s.trapMicro lp).suspendChecking lp
      s.setLpv lp { s.lpv lp with halted := true, resv := none })

/-- DEBUG_HALT_END (R233): the LP runs on, unchecked until an RFL at K restores SS 0. -/
def execDebugHaltEnd (lp : LpId) (s : State) : Out :=
  .next (if (s.lpv lp).halted then s.setLpv lp { s.lpv lp with halted := false } else s)

end Sys2Proof.Machine
end

