-- ==== Sys2Proof/Machine/Plan.lean ====
section
/-! DEFINITION. The Gresum image: what makes a slot usable (R532 to R534, R585, R588), how its plan sections are read,
clamped and reported (R589 to R604), and the values they give. -/

namespace Sys2Proof.Machine

/-! ## Acceptance -/

/-- Bytes padded with zeros, or cut, to a length. -/
def padTo (n : Nat) (l : List Byte) : List Byte := (l ++ List.replicate (n - l.length) 0).take n

/-- The 64-byte SHAKE256 digest (R531, R532). -/
def digest64 (l : List Byte) : List Byte := padTo 64 (Config.shake256 l 64)

/-- The bytes of a section that are measured (R588): header 0x000 to 0x727, then from 0xC28 on. -/
def secMeasured (x : Section) : List Byte :=
  [x.type, x.major, x.minor, BitVec.ofNat 8 (b2n x.signer)] ++ toBytes x.svn.toNat 2 ++ [0, 0] ++
    toBytes x.body.length 4 ++ toBytes x.device.toNat 2 ++ [0, 0] ++ List.replicate 16 0 ++
    padTo 1800 x.key ++ List.replicate 24 0 ++ x.body

/-- The measurement of a section (R532, R588). -/
def secMeasurement (x : Section) : List Byte := digest64 (secMeasured x)

/-- The length of a section header (R588). -/
def secHeader : Nat := 3136

/-- The SVN group of a section type: 0 KEEL, 1 UCODE, 2 DECODE, 3 PLAN (R533). -/
def svnGroup (t : Nat) : Nat := if t = 1 then 0 else if t = 2 ∨ t = 3 then 1 else if t = 4 then 2 else 3

/-- Whether a signer is allowed for a section (R533): `owned` says that an owner anchor exists. -/
def signerOk (t : Nat) (signer owned : Bool) : Bool :=
  if t ≤ 3 then !signer else if t = 4 then signer && owned else signer == owned

/-- RESULT codes of CFG_SLOT_A and CFG_SLOT_B (R614): why a section is not accepted, 0 where it is. -/
def sectionResult (otp : Otp) (major : Nat) (x : Section) : Nat :=
  let t := x.type.toNat
  let anchor := if x.signer then otp.owner else Config.svfAnchor
  if x.dirType ≠ x.type then 2
  else if x.device ≠ 0x9600 ∧ ¬ (x.device = 0x7400 ∧ 5 ≤ t ∧ major = 4) then 5
  else if (t = 1 ∨ t = 2 ∨ t = 4) ∧ x.major.toNat ≠ major ∧ x.major ≠ 5 then 2
  else if digest64 (padTo 1793 x.key) ≠ anchor ∨ ¬ Config.verify x.key (secMeasurement x) x.signature ∨
    ¬ signerOk t x.signer (otp.owner ≠ []) then 3
  else if x.svn.toNat < otp.floors.getD (svnGroup t) 0 then 4
  else 0

/-- Two sections of the directory overlap (R585). -/
def secOverlaps (x y : Section) : Bool := decide (x.offset < y.offset + y.bytes ∧ y.offset < x.offset + x.bytes)

/-- Whether some section of a list overlaps a later one. -/
def anyOverlap : List Section → Bool
  | [] => false
  | x :: r => r.any (fun y => secOverlaps x y) || anyOverlap r

/-- Whether a header passes R585, a major-4 image R602. -/
def headerOk (i : Image) : Bool :=
  decide (i.magic = 0x4D535247 ∧ (i.major = 5 ∨ i.major = 4) ∧ (i.device = 0x9600 ∨ (i.major = 4 ∧ i.device = 0x7400))) &&
  decide (4096 ≤ i.imageBytes.toNat ∧ i.imageBytes.toNat ≤ 0x08000000) &&
  decide (1 ≤ i.sections.length ∧ i.sections.length ≤ 11) && i.zeroFields &&
  i.sections.all (fun x => decide (x.offset % 4096 = 0 ∧ 0x1000 ≤ x.offset ∧ x.offset + x.bytes ≤ i.imageBytes.toNat)) &&
  !anyOverlap i.sections &&
  i.sections.all (fun x => decide (1 ≤ x.dirType.toNat ∧ x.dirType.toNat ≤ 11)) &&
  decide (i.sections.map Section.dirType).Nodup &&
  i.sections.any (fun x => decide (x.dirType = 1)) &&
  !(decide (i.major = 4) && i.sections.any (fun x => decide (x.dirType = 8 ∨ x.dirType = 11)))

/-- The outcome for a slot before its keelcode is loaded: RESULT and SECTION of R614. -/
def slotCheck (otp : Otp) (i : Option Image) : Nat × Nat :=
  match i with
  | none => (7, 0)
  | some i =>
    if ¬ headerOk i then (2, 0)
    else match i.sections.find? (fun x => decide (sectionResult otp i.major.toNat x ≠ 0)) with
      | some x => (sectionResult otp i.major.toNat x, x.dirType.toNat)
      | none => (0, 0)

/-- The section of a type. -/
def sectionOf (i : Image) (t : Nat) : Option Section := i.sections.find? (fun x => decide (x.type.toNat = t))

/-- The eleven measurements in the order of R533's rows, 64 zero bytes for an absent section (R588). -/
def measurementsOf (i : Image) : List (List Byte) :=
  (List.range 11).map (fun k => match sectionOf i (k + 1) with
    | some x => secMeasurement x
    | none => List.replicate 64 0)

/-- IMAGE_DIGEST (R534, R588). -/
def imageDigestOf (i : Image) : List Byte := digest64 (measurementsOf i).flatten

/-! ## Records -/

/-- A record of a section body (R589). -/
structure Rec where
  tag : Nat
  idx : Nat
  val : List Byte
deriving DecidableEq, Repr

/-- What the reading of a body meets: a record, or a record header that ends it (R590). -/
inductive Item where
  | one (r : Rec)
  | bad (tag idx : Nat)
deriving DecidableEq, Repr

/-- The records of a body in order (R589, R590). -/
def records : Nat → List Byte → List Item
  | 0, _ => []
  | _, [] => []
  | n + 1, l =>
    if l.length < 8 then [.bad 0 0]
    else
      let h := leNat (l.take 8)
      let len := h / 2 ^ 32 % 2 ^ 16
      if h / 2 ^ 48 ≠ 0 ∨ len % 8 ≠ 0 ∨ l.length < 8 + len then [.bad (h % 2 ^ 16) (h / 2 ^ 16 % 2 ^ 16)]
      else .one ⟨h % 2 ^ 16, h / 2 ^ 16 % 2 ^ 16, (l.drop 8).take len⟩ :: records n (l.drop (8 + len))

/-- An entry of the configuration report (R604). -/
abbrev Entry := Word × Word × Word

/-- The entry of a section, kind, tag, index, with GIVEN and USED. -/
def entry (sec kind tag idx given used : Nat) : Entry :=
  (field 3 0 sec ||| field 7 4 kind ||| field 23 8 tag ||| field 39 24 idx, BitVec.ofNat 64 given, BitVec.ofNat 64 used)

/-! ## Fields -/

/-- What the clamps depend on: LP_COUNT, whether the image is a major-4 image, RTU_DEVID_0, whether ports are admitted yet and
DATA_GIB of each admitted one, whether a ring lies in mapped memory (R626). -/
structure PlanCtx where
  lps : Nat
  four : Bool
  devId : Nat
  admitted : Bool
  gib : Nat → Option Nat
  ringOk : Nat → Nat → Bool

/-- A field of a plan (R593 to R601): tag, elements (0: a scalar), bytes, whether a major-4 section may carry it, default, the
elements that exist, those a record of which is dropped, and the clamp, which sees every value given. -/
structure Fld where
  tag : Nat
  cnt : Nat
  size : Nat
  four : Bool
  dflt : Nat → Nat
  exist : Nat → Bool
  bad : Nat → Nat → Bool
  clamp : Map Nat → Nat → Nat → Nat

/-- A field of eight bytes. -/
def fld (tag cnt : Nat) (four : Bool) (d : Nat) (f : Nat → Nat) : Fld :=
  ⟨tag, cnt, 8, four, fun _ => d, fun _ => true, fun _ _ => false, fun _ _ v => f v⟩

/-- A value outside a range goes to the nearer bound (R591). -/
def clampTo (lo hi v : Nat) : Nat := if v < lo then lo else min v hi

/-- A value with bits `hi`:`lo` replaced. -/
def natBits (v hi lo x : Nat) : Nat :=
  v - (v / 2 ^ lo % 2 ^ (hi + 1 - lo)) * 2 ^ lo + (x % 2 ^ (hi + 1 - lo)) * 2 ^ lo

/-- FC_SRC_CFG as it is stored (R555, R579). -/
def clampSrcCfg (n v : Nat) : Nat :=
  match fcClassOf n with
  | none => 0
  | some (c, k) =>
    let r := v % 8
    let r := if k.allowed.contains r then r else k.dflt
    let t := v / 2 ^ 8 % 2 ^ 8
    let t := if c = 1 ∨ c = 3 ∨ c = 25 then 1 else max t 1
    r + t * 2 ^ 8 + clampTo 1 86400000 (v / 2 ^ 16 % 2 ^ 27) * 2 ^ 16

/-- FC_CLASS as the policy gives it: QUIET_MS and MAX_READMIT (R578). -/
def clampFcClass (v : Nat) : Nat := clampTo 1 60000 (v % 2 ^ 16) + v / 2 ^ 16 % 2 ^ 8 * 2 ^ 16

/-- FC_HOLD as it is stored (R575). -/
def clampFcHold (v : Nat) : Nat :=
  clampTo 1 60000 (v % 2 ^ 16) + max 1 (v / 2 ^ 16 % 2 ^ 8) * 2 ^ 16 + min (v / 2 ^ 24 % 2 ^ 14) 8760 * 2 ^ 24

/-- FLX_PORT_CTL as the Florix plan gives it (R490, R598). -/
def clampFlxPort (v : Nat) : Nat :=
  let v := natBits v 31 19 0
  let v := if v / 2 % 4 = 3 then natBits v 2 1 0 else v
  let vid := v / 16 % 4096
  let v := if v / 8 % 2 = 1 ∧ (vid = 0 ∨ vid = 0xFFF) then natBits v 3 3 0 else v
  let v := if v / 2 ^ 32 % 2 ^ 16 < 0x600 then natBits v 47 32 0x88B5 else v
  if v / 2 ^ 48 % 2 ^ 16 = 0 then natBits v 63 48 0x5AF0 else v

/-- A link's MAC address: zero and multicast addresses become 0 (R598).  PRESUMED (log 21): the first octet is bits 47:40. -/
def clampMac (v : Nat) : Nat := let v := v % 2 ^ 48; if v / 2 ^ 40 % 2 = 1 then 0 else v

/-- FLX_XTAB (R492, R598). -/
def clampXtab (v : Nat) : Nat :=
  let b := v / 2 ^ 18 % 2 ^ 34 * 2 ^ 18
  if v / 2 % 2 ^ 17 ≠ 0 then b else b + v % 2

/-- The highest event code of a counter's kind (R616, R619). -/
def tallyCodes (i : Nat) : Nat :=
  if i < 512 then 0x0F else if i < 704 then 7 else if i < 784 then 6 else 5

/-- TALLY_SEL as it is stored (R620, R630, R637). -/
def clampSel (i v : Nat) : Nat :=
  let code := v % 256
  let code := if tallyCodes i < code then 0 else code
  let sample := if i < 512 then v / 512 % 2 else 0
  code + v / 256 % 2 * 256 + sample * 512 + clampTo 4 47 (v / 1024 % 64) * 1024 + v / 2 ^ 16 % 2 ^ 12 * 2 ^ 16

/-- TALLY_RING_COUNT as it is stored (R636). -/
def clampRingCount (v : Nat) : Nat := clampTo 2 65536 v

/-- TALLY_CTL.WATCH_US as it is stored (R634). -/
def clampWatch (v : Nat) : Nat := clampTo 100 10000000 v

/-- The RING value (R626, R636): an unusable ring has USED 0. -/
def clampRing (c : PlanCtx) (v : Nat) : Nat :=
  let b := v % 2 ^ 64
  let n := clampRingCount (v / 2 ^ 64)
  let b := if b % 2 = 1 ∧ (b / 2 % 2 ^ 12 ≠ 0 ∨ b / 2 ^ 52 ≠ 0 ∨ ¬ c.ringOk (b / 2 ^ 13 * 2 ^ 13) n) then 0
    else b / 2 ^ 13 % 2 ^ 39 * 2 ^ 13 + b % 2
  b + n * 2 ^ 64

/-- LPs named by the valid partitions below `p` (R593). -/
def partTaken (lps : Nat) (raw : Map Nat) (p : Nat) : Nat :=
  (List.range p).foldl (fun m q =>
    if raw.get (0x0501 * 65536 + q) (if q = 0 then 1 else 0) = 0 then m
    else m ||| raw.get (0x0502 * 65536 + q) (if q = 0 then 2 ^ lps - 1 else 0) % 2 ^ lps) 0

/-- PART_LPS after R593. -/
def clampPartLps (lps : Nat) (raw : Map Nat) (p v : Nat) : Nat :=
  let v := v % 2 ^ lps
  v - (v &&& partTaken lps raw p)

/-- Whether a UC_MATCH value names a patch word outside the Svafort region (R180). -/
def badMatch (v : Nat) : Bool := decide (v / 2 ^ 16 % 2 ^ 16 < 0x8000 ∨ 0x83FF < v / 2 ^ 16 % 2 ^ 16)

/-- Whether a UC_DECODE value is rejected (R201). -/
def badDecode (v : Nat) : Bool :=
  decide (2 < v / 16 % 16 ∨ v / 2 ^ 16 % 2 ^ 16 < 0x8400 ∨ 0x87FF < v / 2 ^ 16 % 2 ^ 16)

/-- The fields of a section type, in tag order (R593 to R601), without SET and the microwords. -/
def fieldsOf (c : PlanCtx) (t : Nat) : List Fld :=
  match t with
  | 2 => [{ fld 0x0202 64 false 0 (fun v => v) with
            bad := fun _ v => badMatch v
            clamp := fun _ _ v => if badMatch v then natBits (v % 2 ^ 32) 15 15 0 else v % 2 ^ 32 }]
  | 4 => [{ fld 0x0402 16 false 0 (fun v => v) with
            bad := fun _ v => badDecode v
            clamp := fun _ _ v => if badDecode v then 0 else v % 2 ^ 8 + v / 2 ^ 16 % 2 ^ 16 * 2 ^ 16 }]
  | 5 => [{ fld 0x0501 64 true 0 (min 1) with dflt := fun p => if p = 0 then 1 else 0 },
          { fld 0x0502 64 true 0 (fun v => v) with
            dflt := fun p => if p = 0 then 2 ^ c.lps - 1 else 0
            clamp := fun raw p v => clampPartLps c.lps raw p v },
          fld 0x0503 64 false (if c.four then 1 else 0) (min 1),
          fld 0x0504 64 true 0 (fun v => if v % 64 ≠ 0 ∨ 2 ^ 52 ≤ v then 0 else v)]
  | 6 => [fld 0x0602 0 true 10 (clampTo 1 100), fld 0x0603 0 false 32 (min 255), fld 0x0604 0 false 0x17 (· % 32),
          fld 0x0605 16 false 0x1800 (fun v => v % 2 + max 1 (v / 256 % 256) * 256)]
  | 7 => [fld 0x0701 4 true 0 (fun v => if v = 3 then 0 else min 2 v), fld 0x0702 16 true 0 (min 1),
          fld 0x0703 0 true 30 (clampTo 1 60000), fld 0x0704 0 true 2000 (min 60000), fld 0x0705 0 false 1 (min 1)]
  | 8 => [fld 0x0801 4 false 0x5AF088B500000000 clampFlxPort, fld 0x0802 16 false 0 clampMac,
          fld 0x0803 16 false 0 (· % 2 ^ 32), { fld 0x0804 16 false 0 (fun v => v) with size := 16 },
          fld 0x0805 0 false c.devId (fun v => if v = 0 then c.devId else v), fld 0x0806 0 false 0 clampXtab,
          fld 0x0807 64 false 0 (fun v => v)]
  | 9 => [fld 0x0901 0 true 256 (clampTo 64 512),
          { fld 0x0902 2048 true 0 (fun v => v) with
            dflt := fun n => (match fcClassOf n with | some (_, k) => (fcCfgDefault k).toNat | none => 0)
            exist := fun n => (fcClassOf n).isSome
            clamp := fun _ n v => clampSrcCfg n v },
          fld 0x0903 28 false 1000 clampFcClass, fld 0x0904 0 false (1000 + 8 * 2 ^ 16 + 24 * 2 ^ 24) clampFcHold]
  | 10 => [fld 0x0A01 0 true 100 (min 60000)]
  | 11 => [fld 0x0B01 0 false 1000000 clampWatch,
           { fld 0x0B02 0 false (2 * 2 ^ 64) (fun v => v) with size := 16, clamp := fun _ _ v => clampRing c v },
           { fld 0x0B03 800 false 0x4000 (fun v => v) with clamp := fun _ i v => clampSel i v }]
  | _ => []

/-- The micro-addresses a microcode section's words may take, by tag (R601). -/
def wordsOf (t : Nat) : Option (Nat × Nat × Nat) :=
  match t with
  | 2 => some (0x0201, 0x8000, 0x83FF)
  | 3 => some (0x0301, 0xC000, 0xFFFF)
  | 4 => some (0x0401, 0x8400, 0x87FF)
  | _ => none

/-! ## Interleave sets -/

/-- The outcome of one SET element (R595): its entries, its set if it stands, whether it is mapped. -/
structure SetOut where
  idx : Nat
  report : List Entry
  set : Option MSet
  mapped : Bool

/-- The ports of a SET value. -/
def setPorts (v : Nat) : List Nat := (List.range (v / 2 ^ 64 % 256)).map (fun i => v / 16 ^ i % 16)

/-- Whether a set overlaps another one. -/
def MSet.overlaps (x y : MSet) : Bool :=
  decide (x.base < y.base + y.ports.length * y.share ∧ y.base < x.base + x.ports.length * x.share)

/-- GRANULE in bytes: 256 B, 4 KiB, 64 KiB (R323). -/
def granuleOf (g : Nat) : Nat := if g = 0 then 256 else if g = 1 then 4096 else 65536

/-- One SET element, after the lower-numbered ones (R595). -/
def resolveSet (c : PlanCtx) (prev : List SetOut) (t v : Nat) : SetOut :=
  let ways := v / 2 ^ 64 % 256
  let gr := v / 2 ^ 72 % 256
  let share := v / 2 ^ 80 % 65536
  let base := v / 2 ^ 96 % 65536
  let ports := setPorts v
  let lo := v % 2 ^ 64
  let e (kind used : Nat) : Entry := entry 6 kind 0x0601 t lo used
  let used := prev.filterMap (·.set)
  if ¬ [1, 2, 4, 8, 16].contains ways ∨ ¬ ports.Nodup ∨ ports.any (fun p => used.any (fun x => x.ports.contains p)) then
    ⟨t, [e 4 0], none, false⟩
  else
    let g := if gr = 3 then 1 else min 2 gr
    let es := (if v / 2 ^ 112 ≠ 0 ∨ g ≠ gr then [e 0 lo] else [])
    let small := (ports.filterMap c.gib).min?
    let share' := match small with | some m => min share m | none => share
    let es := if share' ≠ share then es ++ [e 0 lo] else es
    let x : MSet := ⟨ports, granuleOf g, share', base, t⟩
    if share' = 0 ∨ 16384 < base + ways * share' ∨
       (prev.filter (·.mapped)).any (fun y => match y.set with | some y => x.overlaps y | none => false) then
      ⟨t, es ++ [e 4 0], none, false⟩
    else if c.admitted ∧ ports.any (fun p => (c.gib p).isNone) then ⟨t, es ++ [e 9 lo], some x, false⟩
    else ⟨t, es, some x, true⟩

/-- The SET elements in ascending order (R595). -/
def resolveSets (c : PlanCtx) (raw : Map Nat) : List SetOut :=
  (raw.filter (fun e => decide (e.1 / 65536 = 0x0601))).foldl
    (fun l e => l ++ [resolveSet c l (e.1 % 65536) e.2]) []

/-- The set the module forms where no SET record is present, and its SET value (R596). -/
def formedSet (c : PlanCtx) : Option MSet × Nat :=
  let ports := (List.range 16).filter (fun p => (c.gib p).isSome)
  if ports.isEmpty then (none, 0)
  else
    let ports := ports.take (2 ^ ports.length.log2)
    let share := (ports.filterMap c.gib).min?.getD 0
    let v := ((List.range ports.length).map (fun i => ports.getD i 0 * 16 ^ i)).sum
    (if share = 0 then none else some ⟨ports, 4096, share, 0, 0⟩, v)

/-! ## Reading a section -/

/-- What the sections yield: effective values by tag × 2^16 + index where a record gave one, loaded microwords, sets, and the
report. -/
structure PlanOut where
  vals : Map Nat
  words : Map (BitVec 128)
  sets : List MSet
  report : List Entry
deriving DecidableEq, Repr

/-- What becomes of a record (R590): unknown, dropped, repeated, too short, or read by its field. -/
inductive RClass where
  | unknown
  | dropped
  | repeated
  | short
  | words
  | set
  | value (f : Fld)

/-- Classifies a record, after the records already seen. -/
def classify (flds : List Fld) (words : Option (Nat × Nat × Nat)) (sets : Bool) (seen : List (Nat × Nat)) (r : Rec) : RClass :=
  if words.any (fun w => decide (w.1 = r.tag)) then
    if seen.contains (r.tag, r.idx) then .repeated else if r.val.isEmpty then .short else .words
  else if sets ∧ r.tag = 0x0601 then
    if 8 ≤ r.idx then .dropped else if seen.contains (r.tag, r.idx) then .repeated
    else if r.val.length < 16 then .short else .set
  else match flds.find? (fun f => decide (f.tag = r.tag)) with
    | none => .unknown
    | some f =>
      if max 1 f.cnt ≤ r.idx ∨ ¬ f.exist r.idx then .dropped
      else if seen.contains (r.tag, r.idx) then .repeated
      else if r.val.length < f.size then .short
      else .value f

/-- The values given by the records that stand: the first pass. -/
def rawValues (flds : List Fld) (w : Option (Nat × Nat × Nat)) (sets : Bool) (l : List Rec) : Map Nat :=
  (l.foldl (fun (a : Map Nat × List (Nat × Nat)) r =>
    let raw := match classify flds w sets a.2 r with
      | .value f => a.1.insert (r.tag * 65536 + r.idx) (leNat (r.val.take f.size))
      | .set => a.1.insert (r.tag * 65536 + r.idx) (leNat (r.val.take 16))
      | _ => a.1
    (raw, a.2 ++ [(r.tag, r.idx)])) ([], [])).1

/-- The microwords of one record: those outside the region are dropped, and an earlier record's word stands (R601). -/
def loadWords (sec tag lo hi : Nat) : Nat → Nat → List Byte → Map (BitVec 128) × List Entry → Map (BitVec 128) × List Entry
  | 0, _, _, a => a
  | n + 1, u, l, a =>
    if l.isEmpty then a
    else if l.length < 16 then (a.1, a.2 ++ [entry sec 8 tag u (leNat l) 0])
    else
      let v := leNat (l.take 16)
      let a := if u < lo ∨ hi < u then (a.1, a.2 ++ [entry sec 4 tag u v 0])
        else if a.1.any (fun e => decide (e.1 = u)) then a
        else (a.1.insert u (BitVec.ofNat 128 v), a.2)
      loadWords sec tag lo hi n (u + 1) (l.drop 16) a

/-- What one record leaves: the second pass, with the raw values and the sets resolved. -/
def recordStep (sec : Nat) (flds : List Fld) (w : Option (Nat × Nat × Nat)) (sets : Bool) (raw : Map Nat) (so : List SetOut)
    (a : PlanOut × List (Nat × Nat)) (r : Rec) : PlanOut × List (Nat × Nat) :=
  let o := a.1
  let given := leNat (r.val.take 16)
  let add (es : List Entry) : PlanOut := { o with report := o.report ++ es }
  let e (kind used : Nat) : Entry := entry sec kind r.tag r.idx given used
  let o := match classify flds w sets a.2 r with
    | .unknown => add [e 2 0]
    | .dropped => add [e 4 0]
    | .repeated => add [e 3 0]
    | .short => add [e 8 0]
    | .words =>
      match w with
      | none => o
      | some (tag, lo, hi) =>
        let (m, es) := loadWords sec tag lo hi (r.val.length / 16 + 1) r.idx r.val (o.words, [])
        { o with words := m, report := o.report ++ es }
    | .set =>
      let x := so.find? (fun x => decide (x.idx = r.idx))
      add ((if 16 < r.val.length then [e 8 given] else []) ++ ((x.map (·.report)).getD []))
    | .value f =>
      let v := leNat (r.val.take f.size)
      let used := f.clamp raw r.idx v
      let es := (if f.size < r.val.length then [entry sec 8 r.tag r.idx v used] else []) ++
        (if f.bad r.idx v then [entry sec 4 r.tag r.idx v used]
         else if used ≠ v then [entry sec 0 r.tag r.idx v used] else [])
      { o with vals := o.vals.insert (r.tag * 65536 + r.idx) used, report := o.report ++ es }
  (o, a.2 ++ [(r.tag, r.idx)])

/-- The DEFAULTED entry of a field: of a scalar, or of the elements without a record (R591). -/
def defaulted (sec : Nat) (seen : List (Nat × Nat)) (f : Fld) : List Entry :=
  if f.cnt = 0 then (if seen.contains (f.tag, 0) then [] else [entry sec 1 f.tag 0 0 (f.dflt 0)])
  else
    let n := ((List.range f.cnt).filter (fun i => f.exist i && !seen.contains (f.tag, i))).length
    if n = 0 then [] else [entry sec 1 f.tag 0xFFFF n 0]

/-- A section of type 2 to 11: `x` is the section, `none` where it is absent (R590, R591, R595, R596, R601, R602). -/
def readSection (c : PlanCtx) (o : PlanOut) (t : Nat) (x : Option Section) : PlanOut :=
  let readable : Bool := match x with | some x => decide (t ≤ 4 ∨ x.major = 4 ∨ x.major = 5) | none => false
  let four : Bool := match x with | some x => decide (5 ≤ t ∧ x.major = 4) | none => decide (5 ≤ t) && c.four
  let all := fieldsOf c t
  let known := all.filter (fun f => !four || f.four)
  let formed := formedSet c
  let setEntry := entry 6 1 0x0601 0 0 formed.2
  let setDefault (o : PlanOut) : PlanOut :=
    if t = 6 ∧ c.admitted then { o with sets := formed.1.toList, report := o.report ++ [setEntry] } else o
  if ¬ readable then
    let o := setDefault { o with report := o.report ++ [entry t 5 0 0 0 0] }
    if c.four ∧ 5 ≤ t then
      { o with report := o.report ++ ((all.filter (fun f => !f.four)).map (fun f => defaulted t [] f)).flatten }
    else o
  else
    let body := (x.map Section.body).getD []
    let items := records (body.length / 8 + 1) body
    let recs := items.filterMap (fun i => match i with | .one r => some r | .bad _ _ => none)
    let w := wordsOf t
    let raw := rawValues known w (t = 6) recs
    let so := resolveSets c raw
    let (o, seen) := recs.foldl (recordStep t known w (t = 6) raw so) (o, [])
    let o := match items.getLast? with
      | some (.bad tag idx) => { o with report := o.report ++ [entry t 8 tag idx 0 0] }
      | _ => o
    let o := if recs.any (fun r => decide (t = 6 ∧ r.tag = 0x0601)) then
        { o with sets := so.filterMap (fun x => if x.mapped then x.set else none) }
      else setDefault o
    { o with report := o.report ++ (all.map (fun f => defaulted t (if !four || f.four then seen else []) f)).flatten }

/-- A value of the plan, its default where no record gave one. -/
def PlanOut.val (c : PlanCtx) (o : PlanOut) (t tag i : Nat) : Nat :=
  o.vals.get (tag * 65536 + i) (match (fieldsOf c t).find? (fun f => decide (f.tag = tag)) with
    | some f => f.dflt i
    | none => 0)

/-- The partitions marked forerunner that are not started for want of a forerunner control store (R205). -/
def notStarted (c : PlanCtx) (o : PlanOut) (stored : Bool) : List Nat :=
  if stored then [] else
    (List.range 64).filter (fun p => decide (o.val c 5 0x0501 p = 1 ∧ o.val c 5 0x0503 p = 1))

/-- The sections of an accepted image are read in type order (R604). -/
def readPlans (c : PlanCtx) (i : Image) : PlanOut :=
  (List.range 10).foldl (fun o k =>
    let t := k + 2
    let o := readSection c o t (sectionOf i t)
    if t = 5 then
      { o with report := o.report ++ (notStarted c o (sectionOf i 3).isSome).map (fun p => entry 5 6 0x0503 p 1 0) }
    else o) ⟨[], [], [], []⟩

/-! ## What the plans set -/

/-- Whether a range of offsets of this module's main memory is mapped (R324). -/
def coverOwn (sets : List MSet) : Nat → Nat → Nat → Bool
  | 0, _, _ => false
  | k + 1, o, e =>
    if e ≤ o then true
    else match findSet sets o with
      | none => false
      | some t => coverOwn sets k (t.base * gib + t.ports.length * t.share * gib) e

/-- Whether an absolute range lies in this module's mapped main memory (R592). -/
def State.mappedHere (s : State) (sets : List MSet) (a n : Nat) : Bool :=
  let b := s.pwr.modid.val * 0x100000000000
  decide (b ≤ a ∧ a + n ≤ b + 0x100000000000) && coverOwn sets 20 (a - b) (a + n - b)

/-- Whether an absolute range lies in mapped main memory of the deck (R626): memory of another module of the deck is taken
as mapped. -/
def State.mappedDeck (s : State) (sets : List MSet) (a n : Nat) : Bool :=
  (List.range 8).all (fun m =>
    let b := m * 0x100000000000
    let lo := max a b
    let hi := min (a + n) (b + 0x100000000000)
    if hi ≤ lo then true
    else if m = s.pwr.modid.val then coverOwn sets 20 (lo - b) (hi - b) else s.inDeck m) &&
  decide (a + n ≤ 0x800000000000)

/-- The device ID (R538): the first 16 bytes of the digest of the identity public key. -/
def deviceId : List Byte := padTo 16 (Config.shake256 Config.idKey 16)

/-- What the clamps of a start depend on; `o` brings the sets once ports are admitted. -/
def State.planCtx (s : State) (i : Image) (admitted : Bool) (sets : List MSet) : PlanCtx :=
  { lps := s.lpCount, four := decide (i.major = 4), devId := leNat (deviceId.take 8), admitted := admitted
    gib := fun p => if admitted ∧ s.portState p = 2 then some (s.regF (offPm p + 0x10) 25 16) else none
    ringOk := fun a n => !admitted || s.mappedDeck sets a (n * 0x2000) }

/-- The plans of an image as this module reads them: with the admitted ports, in two readings, so that the ring is judged
against the sets. -/
def State.readImage (s : State) (i : Image) (admitted : Bool) : PlanCtx × PlanOut :=
  let o := readPlans (s.planCtx i admitted []) i
  if admitted then
    let c := s.planCtx i true o.sets
    (c, readPlans c i)
  else (s.planCtx i false [], o)

/-- Writes the configuration report, its head and MOD_STATUS.CFG_CLAMPED (R41, R604, R613). -/
def State.setReport (s : State) (l : List Entry) : State :=
  let regs := s.live.regs.filter (fun e => !decide (offCfg + 0x8000 ≤ e.1 ∧ e.1 < offCfg + 0x10000))
  let s := { s with live := { s.live with regs := regs } }
  let s := ((l.take 1024).zipIdx).foldl (fun s e =>
    let o := offCfg + 0x8000 + 0x20 * e.2
    ((s.setReg o e.1.1).setReg (o + 8) e.1.2.1).setReg (o + 16) e.1.2.2) s
  let s := s.setReg (offCfg + 0x10) (field 10 0 (min l.length 1024) ||| field 31 16 (min (l.length - 1024) 0xFFFF))
  s.setRegF 0x18 11 11 (b2n (l.any (fun e => decide (bits e.1 7 4 = 0 ∨ bits e.1 7 4 = 1 ∨ bits e.1 7 4 = 5))))

/-- An entry added to the report of a running module (R466, R598, R604). -/
def State.addReport (s : State) (e : Entry) : State :=
  let h := offCfg + 0x10
  let n := s.regF h 10 0
  let s := if n < 1024 then
      let o := offCfg + 0x8000 + 0x20 * n
      (((s.setReg o e.1).setReg (o + 8) e.2.1).setReg (o + 16) e.2.2).setRegF h 10 0 (n + 1)
    else s.setRegF h 31 16 (min 0xFFFF (s.regF h 31 16 + 1))
  if bits e.1 7 4 = 0 ∨ bits e.1 7 4 = 1 ∨ bits e.1 7 4 = 5 then s.setRegF 0x18 11 11 1 else s

/-- The collector's configuration takes the values of the fault policy (R573, R605, R569). -/
def State.fcPolicy (s : State) (vals : Map Nat) : State :=
  let keep (k : Nat) : Bool :=
    !decide ((offFc + 0x4000 ≤ k ∧ k < offFc + 0x8000) ∨ (offFc + 0x100 ≤ k ∧ k < offFc + 0x1E0) ∨ k = offFc + 8)
  let s := { s with std := { s.std with fc := s.std.fc.filter (fun e => keep e.1) } }
  vals.foldl (fun s e =>
    let i := e.1 % 65536
    if e.1 / 65536 = 0x0902 then s.setReg (offFc + 0x4000 + 8 * i) (BitVec.ofNat 64 e.2)
    else if e.1 / 65536 = 0x0903 then s.setRegF (offFc + 0x100 + 8 * i) 23 0 e.2
    else if e.1 / 65536 = 0x0904 then s.setReg (offFc + 8) (BitVec.ofNat 64 e.2)
    else s) s

/-- CFG_PART (R615), with NOT_STARTED (R205). -/
def State.setParts (s : State) (c : PlanCtx) (o : PlanOut) (stored : Bool) : State :=
  let ns := notStarted c o stored
  (List.range 64).foldl (fun s p =>
    let r := offCfg + 0x100 + 0x20 * p
    ((s.setReg r (field 0 0 (o.val c 5 0x0501 p) ||| field 1 1 (o.val c 5 0x0503 p) ||| field 2 2 (b2n (ns.contains p)))).setReg
      (r + 8) (BitVec.ofNat 64 (o.val c 5 0x0502 p))).setReg (r + 16) (BitVec.ofNat 64 (o.val c 5 0x0504 p))) s

/-- Memory, channel and microcode registers take their plan values (R594, R597, R601). -/
def State.setPlanA (s : State) (c : PlanCtx) (o : PlanOut) : State :=
  let s := s.setReg offCoh (field 7 0 (o.val c 6 0x0603 0) ||| field 12 8 (o.val c 6 0x0604 0))
  let s := (List.range 16).foldl (fun s p => s.setReg (offPm p + 8) (BitVec.ofNat 64 (o.val c 6 0x0605 p))) s
  let s := s.setReg offCh (field 31 16 (o.val c 7 0x0703 0) ||| field 47 32 (o.val c 7 0x0704 0))
  let s := (List.range 64).foldl (fun s n => s.setReg (offUc + 0x100 + 8 * n) (BitVec.ofNat 64 (o.val c 2 0x0202 n))) s
  (List.range 16).foldl (fun s n => s.setReg (offUc + 0x400 + 8 * n) (BitVec.ofNat 64 (o.val c 4 0x0402 n))) s

/-- UC_STATUS of the image in use (R179): the microcode sections accepted, their security versions, the words of the customer region. -/
def State.setUcStatus (s : State) (i : Image) (o : PlanOut) : State :=
  let has (t : Nat) : Nat := b2n (sectionOf i t).isSome
  let svn (t : Nat) : Nat := match sectionOf i t with | some x => x.svn.toNat | none => 0
  s.setReg offUc (field 0 0 (has 2) ||| field 1 1 (has 4) ||| field 2 2 (has 3) ||| field 31 16 (svn 2) ||| field 47 32 (svn 4) |||
    field 58 48 (o.words.filter (fun e => decide (0x8400 ≤ e.1 ∧ e.1 < 0x8800))).length)

/-- Florix registers take their plan values (R598). -/
def State.setPlanB (s : State) (c : PlanCtx) (o : PlanOut) : State :=
  let s := (List.range 4).foldl (fun s p => s.setReg (offFlx p) (BitVec.ofNat 64 (o.val c 8 0x0801 p))) s
  let s := (List.range 16).foldl (fun s k =>
    let r := offFlx (k / 4) + 0x100 + 0x40 * (k % 4)
    let ip := o.val c 8 0x0804 k
    (((s.setReg (r + 8) (BitVec.ofNat 64 (o.val c 8 0x0802 k))).setReg (r + 16) (BitVec.ofNat 64 (o.val c 8 0x0803 k))).setReg
      (r + 0x20) (BitVec.ofNat 64 ip)).setReg (r + 0x28) (BitVec.ofNat 64 (ip / 2 ^ 64))) s
  (s.setReg (offFlx 0 + 0x1000) (BitVec.ofNat 64 (o.val c 8 0x0805 0))).setReg (offFlx 0 + 0x1008)
    (BitVec.ofNat 64 (o.val c 8 0x0806 0))

/-- Tally registers take their plan values (R600, R633). -/
def State.setPlanC (s : State) (c : PlanCtx) (o : PlanOut) : State :=
  let ring := o.val c 11 0x0B02 0
  let s := s.setReg offTally (field 23 0 (o.val c 11 0x0B01 0))
  let s := (s.setReg (offTally + 0x10) (BitVec.ofNat 64 ring)).setReg (offTally + 0x18) (BitVec.ofNat 64 (ring / 2 ^ 64))
  (List.range 800).foldl (fun s i => s.setReg (offTally + 0x1000 + 8 * i) (BitVec.ofNat 64 (o.val c 11 0x0B03 i))) s

/-- Every register named in the plans takes the value they yield (R605, R606 step 6). -/
def State.applyPlans (s : State) (c : PlanCtx) (o : PlanOut) (stored : Bool) : State :=
  let s := (((s.setParts c o stored).setPlanA c o).setPlanB c o).setPlanC c o
  { s with live := { s.live with plan := o.vals, sets := o.sets } }.fcPolicy o.vals

/-- Microwords loaded into the stores, and the report (R601, R606 step 4). -/
def State.loadStores (s : State) (o : PlanOut) : State := { s with vol := { s.vol with store := o.words, badWords := [] } }

end Sys2Proof.Machine
end

