-- ==== Sys2Proof/Machine/Channel.lean ====
section
/-! DEFINITION. The channel subsystem (R401 to R445): functions and pools, the management function's commands, queues and
doorbells, addresses of the channel, acceptance, checks, the journal, completions, steps and paths. -/

namespace Sys2Proof.Machine

/-! ## Access to the channel's state -/

/-- A VCF. -/
def State.vcf (s : State) (n : Nat) : Vcf := s.live.ch.vcfs.get n Vcf.off

/-- Changes the channel's landed state. -/
def State.withCh (s : State) (f : Chan → Chan) : State := { s with live := { s.live with ch := f s.live.ch } }

/-- Replaces a VCF. -/
def State.setVcf (s : State) (n : Nat) (v : Vcf) : State := s.withCh (fun c => { c with vcfs := c.vcfs.put n v Vcf.off })

/-- A queue pair of the pool. -/
def State.qp (s : State) (p : Nat) : Qp := s.live.ch.qps.get p Qp.free

/-- Replaces a queue pair. -/
def State.setQp (s : State) (p : Nat) (q : Qp) : State := s.withCh (fun c => { c with qps := c.qps.put p q Qp.free })

/-- The pool index of a VCF's local queue pair. -/
def State.poolOf (s : State) (n q : Nat) : Option Nat :=
  (s.live.ch.qps.find? (fun e => decide (e.2.vcf = n ∧ e.2.loc = q))).map (·.1)

/-- The queue pairs granted to a VCF. -/
def State.qpsOf (s : State) (n : Nat) : List (Nat × Qp) := s.live.ch.qps.filter (fun e => decide (e.2.vcf = n))

/-- A journal entry. -/
def State.jent (s : State) (i : Nat) : Jent := s.nv.journal.get i Jent.free

/-- Writes a journal entry. -/
def State.setJent (s : State) (i : Nat) (j : Jent) : State :=
  ({ s with nv := { s.nv with journal := s.nv.journal.put i j Jent.free } }.lsForget
    (fun o => decide (0x8000000 + 64 * i ≤ o ∧ o < 0x8000000 + 64 * i + 64))).lsWritten [0x80000 + i / 4]

/-- An operation. -/
def State.op? (s : State) (i : Nat) : Option Op := (s.live.ch.ops.find? (fun e => decide (e.1 = i))).map (·.2)

/-- Replaces an operation. -/
def State.setOp (s : State) (i : Nat) (o : Op) : State := s.withCh (fun c => { c with ops := c.ops.insert i o })

/-- A step in flight. -/
def State.step? (s : State) (i : Nat) : Option Step := s.vol.steps.get i none

/-- Replaces a step. -/
def State.setStep (s : State) (i : Nat) (x : Option Step) : State :=
  { s with vol := { s.vol with steps := s.vol.steps.put i x none } }

/-- A doubleword of a descriptor or record. -/
def dw (d : List Byte) (i : Nat) : Word := leWord ((d.drop (8 * i)).take 8)

/-- TYPE of a descriptor (R423). -/
def dType (d : List Byte) : Nat := bits (dw d 0) 7 0

/-- LENGTH of a descriptor (R423). -/
def dLen (d : List Byte) : Nat := bits (dw d 1) 31 0

/-- Adds to a VCF statistic (R455). -/
def State.addStat (s : State) (off k n : Nat) : State :=
  { s with live := { s.live with stats := s.live.stats.put (off + 8 * k) (s.live.stats.get (off + 8 * k) 0 + BitVec.ofNat 64 n) 0 } }

/-- VCF_STAT_k (R455). -/
def State.vcfStat (s : State) (n k x : Nat) : State := s.addStat (offVcf n + 0xA00) k x

/-- A CH_EVENT bit, reported to the channel source (R452, R554). -/
def State.chEvent (s : State) (b : Nat) : State := (s.setRegF (offCh + 0x40) b b 1).report 0x210

/-- The channel engine that serves a queue pair (R439, R440): the first running one with room of its group, or of the lowest-numbered
running group where its group has none running. -/
def State.engineFor (s : State) (p : Nat) : Option Nat :=
  let ok (e : Nat) : Bool := decide (s.regF (offCh + 0x100 + 8 * e) 1 0 = 0)
  let room (e : Nat) : Bool :=
    decide ((s.vol.steps.filter (fun x => match x.2 with | some y => decide (y.eng = e) | none => false)).length < 64)
  let grp (g : Nat) : List Nat := (List.range 4).map (fun k => 4 * g + k)
  let g := if (grp (p % 4)).any ok then p % 4 else ((List.range 4).find? (fun g => (grp g).any ok)).getD 0
  ((grp g).filter ok).find? room

/-- A journal write of a queue pair's engine is counted (R434, R619). -/
def State.countJournal (s : State) (p : Nat) : State :=
  match s.engineFor p with
  | some e => s.countCh e 0x06 1
  | none => s

/-- Whether the channel runs: CH_CTL.ENABLE in RUN (R366, R450). -/
def State.chOn (s : State) : Bool := decide (s.pwr.phase = .running) && bit (s.reg offCh) 0

/-! ## Addresses (R405 to R408) -/

/-- The absolute pieces of a zone range through a partition's hub extents; `none` where R77 or R78 fails, PCIe windows and
doorbell pages being forbidden too (R406). -/
def State.hubPieces (s : State) (part z n : Nat) (write : Bool) : Option (List (Nat × Nat)) :=
  if n = 0 then some []
  else if 2 ^ 52 ≤ z + n - 1 then none
  else match translatePieces (s.hubExts part) (if write then .write else .read) true (piecesOf z n) with
    | .error _ => none
    | .ok l => if l.any (fun p => (regionOf p.1).isDevice) then none else some l

/-- The zone address of a channel range, or the status of the first failing check (R407). -/
def State.chanForm (s : State) (n : Nat) (write : Bool) (a : Word) (len : Nat) : Except Nat Nat :=
  let sg := bits a 63 60
  let b : Bank := ⟨s.reg (offVcf n + 0x900 + 16 * sg), s.reg (offVcf n + 0x908 + 16 * sg)⟩
  let o := bits a 47 0
  if bits a 59 48 ≠ 0 then .error 0x02
  else if ¬ b.valid ∨ ¬ b.grants (if write then .write else .read) then .error 0x05
  else if b.limit < o + len - 1 then .error 0x04
  else if 2 ^ 52 ≤ b.base + o + len - 1 then .error 0x06
  else if (s.hubPieces (s.vcf n).part (b.base + o) len write).isNone then .error 0x06
  else .ok (b.base + o)

/-- A failed channel access: a status of R431 with DETAIL; 0x100 where the access must wait. -/
abbrev ChM (α : Type) := EStateM (Nat × Nat) State α

/-- Ends with a status. -/
def chFail {α : Type} (st detail : Nat) : ChM α := throw (st, detail)

/-- Reads pieces as an agent without a cache; `base` is the offset within the operation (R431, BUS_ERROR and POISON). -/
def chReadPieces : Nat → List (Nat × Nat) → ChM (List Byte)
  | _, [] => pure []
  | base, (a, n) :: r => do
    match (← get).readCur (a / 256) (a % 256) n with
    | .bus s => set s; chFail 0x0E 0
    | .wait => chFail 0x100 0
    | .ok (d, f) s =>
      set s
      if f ≠ .good then chFail 0x0F (base / 256)
      else
        let t ← chReadPieces (base + n) r
        pure (d ++ t)

/-- Writes pieces as an agent without a cache. -/
def chWritePieces : List (Nat × Nat) → List Byte → ChM Unit
  | [], _ => pure ()
  | (a, n) :: r, d => do
    let s ← get
    match (if n = 256 then s.writeFull 999 (a / 256) (d.take 256) false false
           else s.writePartial 999 (a / 256) (a % 256) (d.take n)) with
    | .bus s => set s; chFail 0x0E 0
    | .wait => chFail 0x100 0
    | .ok _ s => set s; chWritePieces r (d.drop n)

/-- The pieces of a channel range, or the status of its failing check. -/
def chPieces (n : Nat) (write : Bool) (a : Word) (len : Nat) : ChM (List (Nat × Nat)) := do
  let s ← get
  match s.chanForm n write a len with
  | .error st => chFail st 0
  | .ok z => pure ((s.hubPieces (s.vcf n).part z len write).getD [])

/-- Reads a channel range, counting VCF_STAT_3. -/
def chRead (n base : Nat) (a : Word) (len : Nat) : ChM (List Byte) := do
  let l ← chPieces n false a len
  let d ← chReadPieces base l
  modify (fun s => s.vcfStat n 3 len)
  pure d

/-- The pieces of a list of channel ranges. -/
def chPiecesAll (n : Nat) (write : Bool) : List (Word × Nat) → ChM (List (Nat × Nat))
  | [] => pure []
  | (a, len) :: r => do
    let l ← chPieces n write a len
    let t ← chPiecesAll n write r
    pure (l ++ t)

/-- The part of a list of ranges from offset `off`, `len` bytes long. -/
def sliceRanges : List (Word × Nat) → Nat → Nat → List (Word × Nat)
  | [], _, _ => []
  | (a, n) :: r, off, len =>
    if len = 0 then []
    else if n ≤ off then sliceRanges r (off - n) len
    else
      let k := min (n - off) len
      (a + BitVec.ofNat 64 off, k) :: sliceRanges r 0 (len - k)

/-- Total length of a list of ranges. -/
def rangesLen (l : List (Word × Nat)) : Nat := (l.map (·.2)).sum

/-- The entries of a scatter list (R425): ranges, or SGL_ENTRY with the index of the entry in error. -/
def sglEntries : Nat → Nat → List Byte → ChM (List (Word × Nat))
  | 0, _, _ => pure []
  | k + 1, i, d => do
    let len := bits (dw d 1) 31 0
    if len = 0 ∨ bits (dw d 1) 63 32 ≠ 0 then chFail 0x07 i
    else
      let t ← sglEntries k (i + 1) (d.drop 16)
      pure ((dw d 0, len) :: t)

/-- The entries of a scatter list as they stand, each with whether it is well formed (R425). -/
def sglRaw : Nat → List Byte → List ((Word × Nat) × Bool)
  | 0, _ => []
  | k + 1, d =>
    let len := bits (dw d 1) 31 0
    ((dw d 0, len), decide (len ≠ 0 ∧ bits (dw d 1) 63 32 = 0)) :: sglRaw k (d.drop 16)

/-- The ranges of ADDR1 (R423, R425), unchecked: the scatter list is read where SGL is 1. -/
def ranges1 (n : Nat) (d : List Byte) : ChM (List (Word × Nat)) := do
  if bit (dw d 0) 8 then
    let k := bits (dw d 0) 63 48
    if k = 0 then chFail 0x07 0
    else
      let t ← chRead n 0 (dw d 2) (16 * k)
      sglEntries k 0 t
  else pure [(dw d 2, dLen d)]

/-! ## Checks (R424 to R427, R499, R509) -/

/-- Whether the negotiated version has a type (R421). -/
def typeIn (version t : Nat) : Bool :=
  if t = 3 then decide (0x40 ≤ version)
  else if t = 5 ∨ t = 6 then decide (0x32 ≤ version)
  else if t = 7 ∨ t = 9 then decide (0x31 ≤ version)
  else decide (t ≤ 9)

/-- The entries a scatter list may have (R421). -/
def sglMax (version : Nat) : Nat := if version < 0x40 then 255 else 65535

/-- PARAM of COMPRESS and DECOMPRESS (R499). -/
def compressOk (t : Nat) (d : List Byte) : Bool :=
  let p := dw d 5
  decide (bits p 33 32 ≠ 3 ∧ bits p 47 35 = 0 ∧ (t = 6 → bits p 34 34 = 0) ∧ (bits p 63 48 = 0 ↔ dw d 6 = 0))

/-- PARAM of CIPHER (R509). -/
def cipherOk (d : List Byte) : Bool :=
  let p := dw d 5
  let verify := decide (bits p 3 0 = 12)
  decide (bits p 2 0 < 6 ∧ (bits p 2 0 ≠ 1 → bits p 5 4 = 0) ∧ bits p 31 6 = 0 ∧
    (verify = true → bits p 63 32 = 0 ∧ dw d 3 = 0))

/-- Whether every field that must be zero is (R423, R424, R426). -/
def fieldsOk (d : List Byte) : Bool :=
  let t := dType d
  let h := dw d 0
  let noTarget := decide (bits h 47 32 = 0xFFFF)
  let move := decide (1 ≤ t ∧ t ≤ 7)
  decide (bits h 15 11 = 0 ∧ bits (dw d 1) 63 32 = 0) &&
  (decide (t = 9) || !bit h 10) && (bit h 8 || decide (bits h 63 48 = 0)) &&
  (if move then true else !bit h 8 && decide (bits h 63 48 = 0 ∧ dLen d = 0 ∧ dw d 2 = 0)) &&
  (if t = 1 ∨ t = 2 then decide (dw d 3 = 0 ∧ dw d 5 = 0 ∧ dw d 6 = 0)
   else if t = 3 then decide (dw d 3 = 0 ∧ bits (dw d 5) 63 16 = 0 ∧ (noTarget = true → dw d 4 = 0))
   else if t = 4 then noTarget && decide (dw d 4 = 0 ∧ dw d 5 = 0 ∧ dw d 6 = 0)
   else if t = 5 ∨ t = 6 then noTarget && decide (dw d 4 = 0) && compressOk t d
   else if t = 7 then noTarget && decide (dw d 4 = 0) && cipherOk d
   else if t = 8 then noTarget && decide (dw d 3 = 0 ∧ dw d 4 = 0 ∧ bits (dw d 5) 63 7 = 0 ∧ 1 ≤ bits (dw d 5) 6 0 ∧
     bits (dw d 5) 6 0 ≤ 64 ∧ dw d 6 = 0)
   else noTarget && decide (dw d 3 = 0 ∧ dw d 4 = 0 ∧ dw d 5 = 0 ∧ dw d 6 = 0))

/-- A target-table entry's KIND. -/
def tKind (t : Word × Word × Word) : Nat := bits t.1 7 0

/-- The namespace of an NVMe target, as the first controller of its group names it (R441, R442). -/
def State.nsOf (s : State) (t : Word × Word × Word) : Bool × Nat × Nat :=
  let g := s.reg (offCh + 0x1000 + 8 * bits t.1 22 16)
  if bits g 51 48 = 0 then (false, 0, 0) else Config.namespaceInfo (bits g 5 0) (bits t.1 63 32)

/-- Whether a target suits (R424, R431): `wr` for writing. -/
def State.targetOk (s : State) (version : Nat) (wr : Bool) (t : Option (Word × Word × Word)) (nvme florix : Bool) : Bool :=
  match t with
  | none => false
  | some t =>
    bit t.1 (if wr then 9 else 8) &&
    ((nvme && decide (tKind t = 1) && (s.nsOf t).1 && decide (0 < (s.nsOf t).2.1)) ||
     (florix && decide (tKind t = 2 ∧ 0x40 ≤ version)))

/-- Whether two zone ranges overlap. -/
def zOverlap (a b : Nat × Nat) : Bool := decide (a.1 < b.1 + b.2 ∧ b.1 < a.1 + a.2)

/-- The zone ranges of a list of channel ranges, checked (R407). -/
def zoneRanges (n : Nat) (write : Bool) : List (Word × Nat) → ChM (List (Nat × Nat))
  | [] => pure []
  | (a, len) :: r => do
    match (← get).chanForm n write a len with
    | .error st => chFail st 0
    | .ok z =>
      let t ← zoneRanges n write r
      pure ((z, len) :: t)

/-- The outputs of a descriptor: ranges the channel writes apart from ADDR1. -/
def outRanges (d : List Byte) : List (Word × Nat) :=
  let t := dType d
  if t = 4 then [(dw d 3, dLen d)]
  else if t = 5 ∨ t = 6 then
    (dw d 3, bits (dw d 5) 31 0) :: (if dw d 6 = 0 then [] else [(dw d 6, bits (dw d 5) 63 48 * 4096)])
  else if t = 7 then (if bits (dw d 5) 63 32 = 0 then [] else [(dw d 3, bits (dw d 5) 63 32)])
  else []

/-- The checks of R426 in their order.  Where R425 names no entry, DETAIL is the first beyond the version's limit, or the last (log 20). -/
def opCheck (n version : Nat) (o : Op) : ChM Unit := do
  let d := o.desc
  let t := dType d
  let s ← get
  if ¬ typeIn version t ∨ (o.head.isSome ∧ (t = 8 ∨ t = 9)) then chFail 0x01 0
  if ¬ fieldsOk d then chFail 0x02 0
  let move := decide (1 ≤ t ∧ t ≤ 7)
  if move ∧ (dLen d = 0 ∨ ((t = 5 ∨ t = 6) ∧ bits (dw d 5) 31 0 = 0)) then chFail 0x03 0
  let noTarget := decide (bits (dw d 0) 47 32 = 0xFFFF)
  if (t = 1 ∨ t = 2) ∧ ¬ s.targetOk version (t = 2) o.target true true then chFail 0x09 0
  if t = 3 ∧ ((¬ noTarget ∧ ¬ s.targetOk version true o.target true false) ∨
      ¬ s.targetOk version true o.mirror false true) then chFail 0x09 0
  if move then
    let sgl := bit (dw d 0) 8
    let count := bits (dw d 0) 63 48
    let raw ← (if sgl then do
        let l ← chRead n 0 (dw d 2) (16 * count)
        pure (sglRaw count l)
      else pure [((dw d 2, dLen d), true)])
    let r1 := raw.map (·.1)
    let z1 ← zoneRanges n (t = 1) (r1.filter (fun r => decide (r.2 ≠ 0)))
    let zo ← zoneRanges n true (outRanges d)
    let z3 ← (if t = 7 then zoneRanges n false [(dw d 6, 128)] else pure [])
    if sgl ∧ sglMax version < count then chFail 0x07 (sglMax version)
    match raw.findIdx? (fun r => !r.2) with
    | some k => chFail 0x07 k
    | none => pure ()
    if rangesLen r1 ≠ dLen d then chFail 0x07 (r1.length - 1)
    let pairs := zo.any (fun x => z1.any (fun y => zOverlap x y) || z3.any (fun y => zOverlap x y)) ||
      (match zo with | [x, y] => zOverlap x y | _ => false)
    if pairs then chFail 0x08 0
    if t = 7 ∧ bits (dw d 5) 2 0 = 0 ∧ dLen d % 16 ≠ 0 then chFail 0x0A 0
    match o.target with
    | none => pure ()
    | some tg =>
      if tKind tg = 1 ∧ t ≤ 3 then
        let (_, blk, size) := s.nsOf tg
        if dLen d % blk ≠ 0 then chFail 0x0A 0
        if size < (dw d 4).toNat + dLen d / blk then chFail 0x0B 0

/-! ## Completions (R430, R435) -/

/-- SQ_HEAD once operation `i` of the queue pair has written its completion (R419, R430). -/
def State.sqHeadWithout (s : State) (p : Nat) (i : Option Nat) : Nat :=
  let l := (s.live.ch.ops.filter (fun e => decide (e.2.pool = p ∧ some e.1 ≠ i))).map (fun e => s.jent e.1)
  match l with
  | [] => (s.qp p).accept
  | j :: r => (r.foldl (fun a b => if b.seq < a.seq then b else a) j).sqSlot

/-- SQ_HEAD (R419). -/
def State.sqHead (s : State) (p : Nat) : Nat := s.sqHeadWithout p none

/-- Whether the driver's head leaves a free CQ slot and no entry still holds it (R416, R435). -/
def State.cqFree (s : State) (p : Nat) : Bool :=
  let q := s.qp p
  decide (0 < q.cqN ∧ (q.cqTail + q.cqN - q.head) % q.cqN < q.cqN - 1) &&
    !s.live.ch.ops.any (fun e => decide (e.2.pool = p ∧ (s.jent e.1).st = 3 ∧ (s.jent e.1).cqSlot = q.cqTail))

/-- The completion entry of an operation (R430). -/
def completionBytes (d : List Byte) (version st done detail loc sqHead : Nat) (phase reexec degraded raw : Bool) (time : Word) :
    List Byte :=
  let w0 := field 15 0 (bits (dw d 0) 31 16) ||| field 23 16 st ||| field 24 24 (b2n phase) |||
    field 25 25 (b2n (reexec && decide (0x42 ≤ version))) ||| field 26 26 (b2n degraded) ||| field 27 27 (b2n raw) |||
    field 39 32 loc ||| field 63 48 sqHead
  wordBytes w0 ++ wordBytes (field 31 0 done ||| field 63 32 detail) ++ wordBytes (dw d 7) ++
    wordBytes (if 0x41 ≤ version then time else 0)

/-- An operation with a fixed result enters COMPLETING when a CQ slot is free (R433, R435), else it waits for one. -/
def State.enterCompleting (s : State) (i : Nat) : State :=
  match s.op? i with
  | none => s
  | some o =>
    match o.fin with
    | none => s
    | some (st, done, detail) =>
      if ¬ s.cqFree o.pool then
        s.withCh (fun c => { c with waitCq := if c.waitCq.contains i then c.waitCq else c.waitCq ++ [i] })
      else
        let q := s.qp o.pool
        let j := s.jent i
        let v := s.vcf j.vcf
        let cpl := completionBytes o.desc v.version st done detail q.loc (s.sqHeadWithout o.pool (some i)) q.phase j.reexec
          o.degraded o.raw s.live.time
        let s := (s.countJournal o.pool).setJent i { j with st := 3, phase := q.phase, cqSlot := q.cqTail, status := st, detail := detail }
        let s := s.setOp i { o with cpl := cpl }
        let s := s.withCh (fun c => { c with waitCq := c.waitCq.erase i })
        let t := q.cqTail + 1
        s.setQp o.pool (if t = q.cqN then { q with cqTail := 0, phase := !q.phase } else { q with cqTail := t })

/-- An operation's result is fixed: its step ends. -/
def State.fixResult (s : State) (i st done detail : Nat) : State :=
  match s.op? i with
  | none => s
  | some o =>
    if o.fin.isSome then s
    else
      ((s.setOp i { o with fin := some (st, done, detail), started := true }).setStep i none).enterCompleting i

/-- An operation ends with a status; a failed member breaks its chain (R429). -/
def State.finish (s : State) (i st done detail : Nat) : State :=
  match s.op? i with
  | none => s
  | some o =>
    let s := s.fixResult i st done detail
    match o.head with
    | none => s
    | some h =>
      if st = 0 then s
      else match s.op? h with
        | none => s
        | some c =>
          let s := s.setOp h { c with broken := if c.broken = 0 then st else c.broken }
          c.members.foldl (fun s m => if (s.jent i).seq < (s.jent m).seq then s.fixResult m 0x19 0 0 else s) s

/-- An operation's context. -/
def State.ctx? (s : State) (i : Nat) : Option (Nat × Nat × Nat) := (s.vol.ctxs.find? (fun e => decide (e.1 = i))).map (·.2)

/-- DONE of an operation that ends with a status after some steps (R430, R431, R521): the bytes transferred, for the engine types
the output bytes of the completed steps; 0 for the statuses the engines report with DONE 0. -/
def State.chDone (s : State) (i st : Nat) : Nat :=
  let d := match s.op? i with | some o => o.desc | none => []
  let j := s.jent i
  if (dType d = 5 ∨ dType d = 6 ∨ dType d = 7) ∧ [0x02, 0x13, 0x14, 0x15, 0x16, 0x17, 0x18].contains st then 0
  else if dType d = 5 then j.out
  else if dType d = 6 then (match s.ctx? i with | some (_, _, n) => n | none => j.out)
  else if dType d = 7 ∧ bits (dw d 5) 2 0 = 5 then (match s.ctx? i with | some (_, n, _) => n | none => 0)
  else if dType d = 7 ∧ bits (dw d 5) 2 0 = 4 then 0
  else j.done

/-- Runs a channel action: a status ends the operation, DONE counting its completed steps; a wait changes nothing. -/
def State.runCh (s : State) (i : Nat) (m : ChM Unit) : State :=
  match m.run s with
  | .ok _ s1 => s.noteHeld s1 i
  | .error (0x100, _) _ => s
  | .error (st, det) s1 => (s.noteHeld s1 i).finish i st (s.chDone i st) det

/-- Operations that wait for a CQ slot of a queue pair take the slots that are free, in the order of their results. -/
def State.drainCq (s : State) (p : Nat) : State :=
  s.live.ch.waitCq.foldl (fun s i =>
    match s.op? i with
    | some o => if o.pool = p then s.enterCompleting i else s
    | none => s) s

/-! ## Closing -/

/-- A VCF's queue pairs and vectors return to the pools, and its cipher engines become FREE (R403, R517). -/
def State.releaseVcf (s : State) (n : Nat) : State :=
  let s := s.withCh (fun c => { c with qps := c.qps.filter (fun e => decide (e.2.vcf ≠ n)) })
  let s := s.setVcf n Vcf.off
  (List.range 16).foldl (fun s e => if s.regF (offCip e) 15 0 = n + 1 then s.setReg (offCip e) 0 else s) s

/-- A CLOSING VCF whose accepted operations have all completed deletes its queues and becomes ENABLED or DISABLED (R403). -/
def State.checkClose (s : State) (n : Nat) : State :=
  let v := s.vcf n
  if v.st ≠ 3 ∨ s.live.ch.ops.any (fun e => decide ((s.jent e.1).vcf = n)) then s
  else if v.dis then s.releaseVcf n
  else
    let s := (s.qpsOf n).foldl (fun s e => s.setQp e.1 { Qp.free with vcf := n, loc := e.2.loc, st := 1 }) s
    s.setVcf n { v with st := 1, version := 0 }

/-- A QDELETE whose pair has no accepted operation left completes (R415). -/
def State.checkDelete (s : State) (p : Nat) : State :=
  let q := s.qp p
  if q.st ≠ 3 ∨ s.live.ch.ops.any (fun e => decide (e.2.pool = p)) then s
  else
    let s := s.setQp p { Qp.free with vcf := q.vcf, loc := q.loc, st := 1 }
    s.setRegF (offVcf q.vcf + 0x830) 3 0 8

/-- A completion's vector, if it raises one (R414, R423, R430). -/
def State.signalCq (s : State) (p : Nat) (notify : Bool) : State :=
  let q := s.qp p
  match q.vec with
  | none => s
  | some v =>
    if ¬ notify then s
    else
      let src := (s.vcf q.vcf).vecs.get v 0
      if (s.vcf q.vcf).version < 0x41 ∨ q.coalUs = 0 ∨ q.coalCount ≤ q.unsig then (s.setQp p { q with unsig := 0 }).raise src
      else s.setQp p { q with unsig := q.unsig + 1 }

/-- COMPLETION_ACCEPTED (R304, R430, R433, R437): once the homes have accepted what the operation wrote, the home accepts the completion, its entry is FREE, the vector is raised. -/
def execCompletionAccepted (op : BitVec 22) (s : State) : Out :=
  .next (
    let i := op.toNat
    match s.op? i with
    | none => s
    | some o =>
      let j := s.jent i
      let going := decide (s.pwr.phase = .running ∨ (s.pwr.phase = .landing ∧ ¬ s.pwr.land.quiesced))
      if j.st ≠ 3 ∨ ¬ going ∨ ¬ s.accepted i then s
      else
        let q := s.qp o.pool
        match s.hubPieces (s.vcf j.vcf).part (q.cq + 32 * j.cqSlot) 32 true with
        | none => s
        | some l =>
          match (chWritePieces l o.cpl).run s with
          | .error _ _ => s
          | .ok _ s =>
            let s := (s.countJournal o.pool).setJent i Jent.free
            let s := s.withCh (fun c => { c with ops := c.ops.erase i })
            let s := { s with vol := { s.vol with ctxs := s.vol.ctxs.erase i } }
            let s := (s.vcfStat j.vcf 1 1).vcfStat j.vcf 2 (if j.status = 0 then 0 else 1)
            let s := (s.vcfStat j.vcf 5 (b2n j.reexec)).vcfStat j.vcf 4 32
            let s := s.signalCq o.pool (bit (dw o.desc 0) 9)
            ((s.drainCq o.pool).checkDelete o.pool).checkClose j.vcf)

/-- COALESCE_TIMEOUT (R414). -/
def execCoalesceTimeout (pool : Fin 16384) (s : State) : Out :=
  .next (
    let q := s.qp pool.val
    match q.vec with
    | none => s
    | some v => if q.unsig = 0 ∨ s.pwr.phase ≠ .running then s
      else (s.setQp pool.val { q with unsig := 0 }).raise ((s.vcf q.vcf).vecs.get v 0))

/-! ## Management function (R410 to R412) -/

/-- Whether a pool source is granted as a vector. -/
def State.vecGranted (s : State) (src : Nat) : Bool :=
  s.live.ch.vcfs.any (fun e => e.2.vecs.any (fun v => decide (v.2 = src)))

/-- The source ranges of assigned functions. -/
def State.funcRanges (s : State) : List (Nat × Nat) :=
  (List.range 64).filterMap (fun f =>
    let r := s.reg (offPcie + 0x100 + 8 * f)
    if bit r 20 then some (bits r 39 28, bits r 51 40) else none)

/-- Whether a source lies in an assigned function's range. -/
def State.srcAssigned (s : State) (src : Nat) : Bool := s.funcRanges.any (fun r => decide (r.1 ≤ src ∧ src < r.1 + r.2))

/-- The code of a command that has to wait for a line with an open transaction (R259). -/
def mfWaits : Nat := 0x100

/-- Reads a VCF's target table (R441); a table that cannot be read gives BAD_ARG (log 20), one that has to be waited for `mfWaits`. -/
def State.readTable (s : State) (a n : Nat) : Except Nat (Map (Word × Word × Word) × State) :=
  match s.readAbs a (32 * n) with
  | .ok (d, .good) s =>
    .ok ((List.range n).foldl (fun m i =>
      let e := (d.drop (32 * i)).take 32
      m.put i (dw e 0, dw e 1, dw e 2) (0, 0, 0)) [], s)
  | .wait => .error mfWaits
  | _ => .error 6

/-- The lowest free pool indexes. -/
def State.freePairs (s : State) (k : Nat) : List Nat :=
  ((List.range 16384).filter (fun p => !s.live.ch.qps.any (fun e => decide (e.1 = p)))).take k

/-- VCF_ENABLE (R410). -/
def State.mfEnable (s : State) (n : Nat) (a0 a1 : Word) : Nat × State :=
  let cnt := bits a1 63 52 * 16
  let cap := bits a0 46 24
  if (s.vcf n).st ≠ 0 then (2, s)
  else if 0x42 < bits a0 15 8 then (5, s)
  else if bits a0 7 6 ≠ 0 ∨ bits a0 63 47 ≠ 0 ∨ bits a0 23 16 = 0 ∨ cap = 0 ∨ 4194304 < cap ∨ bits a1 7 0 ≠ 0 ∨
    cnt = 0 ∨ 4096 < cnt then (6, s)
  else
    let a := bits a1 51 8 * 256
    match s.readTable a cnt with
    | .error c => (c, s)
    | .ok (m, s) => (0, s.setVcf n { Vcf.off with st := 1, part := bits a0 5 0, maxver := bits a0 15 8, share := bits a0 23 16,
                                                   cap := cap, table := a, entries := cnt, targets := m })

/-- VCF_DISABLE (R403). -/
def State.mfDisable (s : State) (n : Nat) : Nat × State :=
  if (s.vcf n).st = 0 then (2, s) else (0, (s.setVcf n { s.vcf n with st := 3, dis := true }).checkClose n)

/-- QP_GRANT (R410): free pool pairs become the lowest free local numbers. -/
def State.mfQpGrant (s : State) (n : Nat) (a0 : Word) : Nat × State :=
  let k := a0.toNat
  let held := s.qpsOf n
  let free := s.freePairs k
  if (s.vcf n).st ≠ 1 ∧ (s.vcf n).st ≠ 2 then (2, s)
  else if free.length < k then (3, s)
  else if 256 < held.length + k then (5, s)
  else if k = 0 then (6, s)
  else
    let locs := (List.range 256).filter (fun q => !held.any (fun e => decide (e.2.loc = q)))
    (0, (free.zip locs).foldl (fun s e => s.setQp e.1 { Qp.free with vcf := n, loc := e.2, st := 1 }) s)

/-- QP_RECLAIM (R410). -/
def State.mfQpReclaim (s : State) (n : Nat) (a0 : Word) : Nat × State :=
  match s.poolOf n a0.toNat with
  | none => if 256 ≤ a0.toNat then (6, s) else (2, s)
  | some p => if (s.qp p).st ≠ 1 then (4, s) else (0, s.setQp p Qp.free)

/-- VEC_GRANT (R410). -/
def State.mfVecGrant (s : State) (n : Nat) (a0 : Word) : Nat × State :=
  let v := bits a0 5 0
  let src := bits a0 27 16
  if (s.vcf n).st ≠ 1 ∧ (s.vcf n).st ≠ 2 then (2, s)
  else if s.vecGranted src then (3, s)
  else if (s.vcf n).vecs.get v 0 ≠ 0 ∨ s.srcAssigned src then (4, s)
  else if bits a0 15 6 ≠ 0 ∨ bits a0 63 28 ≠ 0 ∨ src < 512 then (6, s)
  else (0, s.setVcf n { s.vcf n with vecs := (s.vcf n).vecs.put v src 0 })

/-- VEC_RECLAIM (R410). -/
def State.mfVecReclaim (s : State) (n : Nat) (a0 : Word) : Nat × State :=
  let v := bits a0 5 0
  if bits a0 63 6 ≠ 0 then (6, s)
  else if (s.vcf n).vecs.get v 0 = 0 then (2, s)
  else if (s.qpsOf n).any (fun e => decide (2 ≤ e.2.st ∧ e.2.vec = some v)) then (4, s)
  else (0, s.setVcf n { s.vcf n with vecs := (s.vcf n).vecs.put v 0 0 })

/-- SET_SHARE (R410). -/
def State.mfSetShare (s : State) (n : Nat) (a0 : Word) : Nat × State :=
  if (s.vcf n).st = 0 then (2, s)
  else if a0 = 0 ∨ 255 < a0.toNat then (6, s)
  else (0, s.setVcf n { s.vcf n with share := a0.toNat })

/-- TGT_SYNC (R441). -/
def State.mfTgtSync (s : State) (n : Nat) : Nat × State :=
  let v := s.vcf n
  if v.st = 0 then (2, s)
  else match s.readTable v.table v.entries with
    | .error c => (c, s)
    | .ok (m, s) => (0, s.setVcf n { s.vcf n with targets := m })

/-- FUNC_ASSIGN (R410, R447). -/
def State.mfFuncAssign (s : State) (a0 : Word) : Nat × State :=
  let o := offPcie + 0x100 + 8 * bits a0 5 0
  let base := bits a0 27 16
  let cnt := bits a0 43 32
  let within (x : Nat) : Bool := decide (base ≤ x ∧ x < base + cnt)
  if bit (s.reg o) 20 then (2, s)
  else if s.live.ch.vcfs.any (fun e => e.2.vecs.any (fun v => within v.2)) then (3, s)
  else if s.funcRanges.any (fun r => decide (0 < r.2 ∧ 0 < cnt ∧ base < r.1 + r.2 ∧ r.1 < base + cnt)) then (4, s)
  else if bits a0 7 6 ≠ 0 ∨ bits a0 15 14 ≠ 0 ∨ bits a0 31 28 ≠ 0 ∨ bits a0 63 44 ≠ 0 ∨ 3584 < cnt ∨
    (0 < cnt ∧ (base < 512 ∨ 4096 < base + cnt)) then (6, s)
  else (0, s.setReg o ((s.reg o &&& msk 19 0) ||| field 20 20 1 ||| field 27 22 (bits a0 13 8) ||| field 39 28 base |||
    field 51 40 cnt))

/-- FUNC_RELEASE (R410, R447). -/
def State.mfFuncRelease (s : State) (a0 : Word) : Nat × State :=
  let o := offPcie + 0x100 + 8 * bits a0 5 0
  if bits a0 63 6 ≠ 0 then (6, s)
  else if ¬ bit (s.reg o) 20 then (2, s)
  else (0, s.setReg o (s.reg o &&& msk 19 0))

/-- One MF command: its CODE and the state (R410, R411). -/
def State.mf (s : State) (opcode n : Nat) (a0 a1 : Word) : Nat × State :=
  if opcode = 9 then s.mfFuncAssign a0
  else if opcode = 10 then s.mfFuncRelease a0
  else if opcode = 0 ∨ 10 < opcode then (1, s)
  else if 1023 ≤ n then (6, s)
  else match opcode with
    | 1 => s.mfEnable n a0 a1
    | 2 => s.mfDisable n
    | 3 => s.mfQpGrant n a0
    | 4 => s.mfQpReclaim n a0
    | 5 => s.mfVecGrant n a0
    | 6 => s.mfVecReclaim n a0
    | 7 => s.mfSetShare n a0
    | _ => s.mfTgtSync n

/-- A management command runs, and CH_RESULT takes its CODE; while it waits for memory BUSY reads 1 (R410,
R451). -/
def State.mfRun (s : State) (v a0 a1 : Word) : State :=
  let (c, s) := s.mf (bits v 7 0) (bits v 17 8) a0 a1
  let wait := decide (c = mfWaits)
  { s with vol := { s.vol with mfWait := if wait then some (v, a0, a1) else none } }.setReg (offCh + 0x30) (BitVec.ofNat 64 (if wait then 8 else c))

/-- A write of CH_CMD (R410): the command runs with the current arguments; ignored while another runs. -/
def State.chCmd (s : State) (v : Word) : State := 
  if s.vol.mfWait.isSome then s else s.mfRun v (s.reg (offCh + 0x18)) (s.reg (offCh + 0x20))

/-- The command that waits for memory is tried again. -/
def State.mfRetry (s : State) : State :=
  match s.vol.mfWait with
  | some (v, a0, a1) => if s.pwr.phase = .running then s.mfRun v a0 a1 else s
  | none => s

/-- The host's sequence for a command: CH_ARG0 and CH_ARG1, then CH_CMD (R410). -/
def mfRow (src : Src) (opcode n : Nat) (a0 a1 : Word) (s : State) : Out :=
  .next (if s.srcMay src 1 ∧ s.pwr.phase = .running then
      ((s.setReg (offCh + 0x18) a0).setReg (offCh + 0x20) a1).chCmd (field 7 0 opcode ||| field 17 8 n)
    else s)

/-- VCF_ENABLE (R410). -/
def execVcfEnable (src : Src) (vcf : Fin 1023) (arg0 arg1 : Word) (s : State) : Out := mfRow src 1 vcf.val arg0 arg1 s
/-- VCF_DISABLE (R403). -/
def execVcfDisable (src : Src) (vcf : Fin 1023) (s : State) : Out := mfRow src 2 vcf.val 0 0 s
/-- QP_GRANT (R410). -/
def execQpGrant (src : Src) (vcf : Fin 1023) (arg0 : Word) (s : State) : Out := mfRow src 3 vcf.val arg0 0 s
/-- QP_RECLAIM (R410). -/
def execQpReclaim (src : Src) (vcf : Fin 1023) (arg0 : Word) (s : State) : Out := mfRow src 4 vcf.val arg0 0 s
/-- VEC_GRANT (R410). -/
def execVecGrant (src : Src) (vcf : Fin 1023) (arg0 : Word) (s : State) : Out := mfRow src 5 vcf.val arg0 0 s
/-- VEC_RECLAIM (R410). -/
def execVecReclaim (src : Src) (vcf : Fin 1023) (arg0 : Word) (s : State) : Out := mfRow src 6 vcf.val arg0 0 s
/-- SET_SHARE (R410). -/
def execSetShare (src : Src) (vcf : Fin 1023) (arg0 : Word) (s : State) : Out := mfRow src 7 vcf.val arg0 0 s
/-- TGT_SYNC (R441). -/
def execTgtSync (src : Src) (vcf : Fin 1023) (s : State) : Out := mfRow src 8 vcf.val 0 0 s
/-- FUNC_ASSIGN (R447). -/
def execFuncAssign (src : Src) (arg0 : Word) (s : State) : Out := mfRow src 9 0 arg0 0 s
/-- FUNC_RELEASE (R447). -/
def execFuncRelease (src : Src) (arg0 : Word) (s : State) : Out := mfRow src 10 0 arg0 0 s

/-! ## Opening and queue commands (R413 to R420) -/

/-- The versions the channel knows, highest first (R420). -/
def chVersions : List Nat := [0x42, 0x41, 0x40, 0x32, 0x31, 0x30]

/-- A write of VCF_OPEN (R403, R420). -/
def State.vcfOpen (s : State) (n : Nat) (v : Word) : State :=
  let x := s.vcf n
  if bits v 63 17 ≠ 0 then s
  else if bit v 16 then
    if x.st ≠ 1 then s
    else match chVersions.find? (fun w => decide (bits v 15 8 ≤ w ∧ w ≤ bits v 7 0 ∧ w ≤ x.maxver)) with
      | none => s.setVcf n { x with version := 0 }
      | some w => s.setVcf n { x with st := 2, version := w }
  else if x.st = 2 then (s.setVcf n { x with st := 3, dis := false }).checkClose n
  else s

/-- Whether a store to a doorbell page above 0x7F8 is allowed: not from level P (R413). -/
def State.vcfMay (s : State) (src : Src) : Bool := s.srcMay src 2 && decide (s.pwr.phase = .running)

/-- VCF_OPEN with OPEN 1 (R420). -/
def execVcfOpen (src : Src) (vcf : Fin 1023) (v : Word) (s : State) : Out :=
  .next (if s.vcfMay src then s.vcfOpen vcf.val (v ||| field 16 16 1) else s)

/-- VCF_OPEN with OPEN 0 (R403). -/
def execVcfClose (src : Src) (vcf : Fin 1023) (s : State) : Out :=
  .next (if s.vcfMay src then s.vcfOpen vcf.val 0 else s)

/-- Whether a queue lies wholly in cacheable main memory through the hub extents (R415). -/
def State.queueOk (s : State) (part z n : Nat) : Bool :=
  match s.hubPieces part z n true with
  | none => false
  | some l => l.all (fun p => (s.lineRef (p.1 / 256)).isSome)

/-- QCREATE (R415, R421): RESULT and the state. -/
def State.qcreate (s : State) (n q : Nat) : Nat × State :=
  let v := s.vcf n
  let a0 := s.reg (offVcf n + 0x818)
  let a1 := s.reg (offVcf n + 0x820)
  let a2 := s.reg (offVcf n + 0x828)
  let sqN := (bits a0 63 52 + 1) * 16
  let cqN := (bits a1 63 52 + 1) * 16
  let old := decide (v.version < 0x40)
  match s.poolOf n q with
  | none => (2, s)
  | some p =>
    if v.st ≠ 2 then (2, s)
    else if (s.qp p).st ≠ 1 then (4, s)
    else if (old ∧ (4096 < sqN ∨ 4096 < cqN)) ∨ (¬ bit a2 6 ∧ (v.vecs.get (bits a2 5 0) 0 = 0 ∨ (old ∧ 16 ≤ bits a2 5 0))) ∨
      ¬ s.queueOk v.part (bits a0 51 12 * 4096) (sqN * 64) ∨ ¬ s.queueOk v.part (bits a1 51 12 * 4096) (cqN * 32) then (6, s)
    else (0, s.setQp p { Qp.free with
      vcf := n, loc := q, st := 2, sq := bits a0 51 12 * 4096, sqN := sqN, cq := bits a1 51 12 * 4096, cqN := cqN,
      vec := if bit a2 6 then none else some (bits a2 5 0), coalCount := bits a2 15 8, coalUs := bits a2 31 16 })

/-- A write of VCF_QCMD (R414, R415). -/
def State.vcfQcmd (s : State) (n : Nat) (v : Word) : State :=
  let o := offVcf n + 0x830
  let q := bits v 15 8
  let res (s : State) (c : Nat) : State := s.setRegF o 3 0 (c + 8)
  if (s.vcf n).st = 0 ∨ bits v 7 4 ≠ 0 ∨ bits v 63 16 ≠ 0 then s
  else if bits v 3 0 = 1 then let (c, s) := s.qcreate n q; res s c
  else if bits v 3 0 = 2 then
    match s.poolOf n q with
    | none => res s 2
    | some p =>
      if (s.qp p).st ≠ 2 then res s 2
      else
        let s := (s.setQp p { s.qp p with st := 3 }).setRegF o 3 0 4
        { s with vol := { s.vol with fetched := s.vol.fetched.put p [] [], waited := s.vol.waited.erase p } }.checkDelete p
  else if bits v 3 0 = 3 then
    let x := match s.poolOf n q with
      | none => Qp.free
      | some p => s.qp p
    let hd := match s.poolOf n q with
      | none => 0
      | some p => s.sqHead p
    s.setReg o (field 3 3 1 ||| field 5 4 x.st ||| field 31 16 x.accept ||| field 47 32 hd ||| field 63 48 x.cqTail)
  else res s 6

/-- QCREATE (R415). -/
def execQcreate (src : Src) (vcf : Fin 1023) (qp : Fin 256) (s : State) : Out :=
  .next (if s.vcfMay src then s.vcfQcmd vcf.val (field 3 0 1 ||| field 15 8 qp.val) else s)
/-- QDELETE (R415). -/
def execQdelete (src : Src) (vcf : Fin 1023) (qp : Fin 256) (s : State) : Out :=
  .next (if s.vcfMay src then s.vcfQcmd vcf.val (field 3 0 2 ||| field 15 8 qp.val) else s)
/-- QUERY (R415). -/
def execQuery (src : Src) (vcf : Fin 1023) (qp : Fin 256) (s : State) : Out :=
  .next (if s.vcfMay src then s.vcfQcmd vcf.val (field 3 0 3 ||| field 15 8 qp.val) else s)

/-- DB_ERROR (R416). -/
def State.dbError (s : State) (n : Nat) : State := s.setRegF (offVcf n + 0x808) 2 2 1

/-- A new SQ tail (R416). -/
def State.sqDoorbell (s : State) (n q t : Nat) : State :=
  if (s.vcf n).st = 0 then s
  else match s.poolOf n q with
    | none => s.dbError n
    | some p =>
      let x := s.qp p
      if x.st ≠ 2 ∨ x.sqN ≤ t ∨ x.sqN - 1 - (x.tail + x.sqN - s.sqHead p) % x.sqN < (t + x.sqN - x.tail) % x.sqN then
        s.dbError n
      else s.setQp p { x with tail := t }

/-- A new CQ head (R416): results that wait for a slot may take one. -/
def State.cqDoorbell (s : State) (n q h : Nat) : State :=
  if (s.vcf n).st = 0 then s
  else match s.poolOf n q with
    | none => s.dbError n
    | some p =>
      let x := s.qp p
      if x.st < 2 ∨ x.cqN ≤ h ∨ (x.cqTail + x.cqN - x.head) % x.cqN < (h + x.cqN - x.head) % x.cqN then s.dbError n
      else
        let s := s.setQp p { x with head := h }
        if s.pwr.phase = .running then s.drainCq p else s

/-- A store to VCF_DB_q (R416). -/
def State.doorbell (s : State) (n q : Nat) (v : Word) : State :=
  if bits v 31 17 ≠ 0 ∨ bits v 63 49 ≠ 0 then s
  else
    let s := if bit v 16 then s.sqDoorbell n q (bits v 15 0) else s
    if bit v 48 then s.cqDoorbell n q (bits v 47 32) else s

/-- Whether doorbell stores are recorded (R366): in RUN and in a landing. -/
def State.dbMay (s : State) : Bool := decide (s.pwr.phase = .running ∨ s.pwr.phase = .landing)

/-- SQ_DOORBELL (R416). -/
def execSqDoorbell (vcf : Fin 1023) (qp : Fin 256) (tail : BitVec 16) (s : State) : Out :=
  .next (if s.dbMay then s.sqDoorbell vcf.val qp.val tail.toNat else s)
/-- CQ_DOORBELL (R416). -/
def execCqDoorbell (vcf : Fin 1023) (qp : Fin 256) (head : BitVec 16) (s : State) : Out :=
  .next (if s.dbMay then s.cqDoorbell vcf.val qp.val head.toNat else s)

/-! ## Fetching and accepting (R417, R418, R429) -/

/-- Whether a queue pair's descriptors are accepted. -/
def State.accepting (s : State) (p : Nat) : Bool := s.chOn && decide ((s.qp p).st = 2 ∧ (s.vcf (s.qp p).vcf).st = 2)

/-- DESCRIPTOR_FETCH (R417): the next descriptor returns.  One that cannot be read is fetched again. -/
def execDescriptorFetch (pool : Fin 16384) (s : State) : Out :=
  .next (
    let p := pool.val
    let q := s.qp p
    let f := s.vol.fetched.get p []
    if ¬ s.accepting p ∨ q.sqN = 0 ∨ (q.tail + q.sqN - q.accept) % q.sqN ≤ f.length then s
    else match s.hubPieces (s.vcf q.vcf).part (q.sq + (q.accept + f.length) % q.sqN * 64) 64 false with
      | none => s
      | some l =>
        match (chReadPieces 0 l).run s with
        | .error _ s => s
        | .ok d s =>
          let s := match s.engineFor p with
            | some e => s.countCh e 0x03 1
            | none => s
          { s with vol := { s.vol with fetched := s.vol.fetched.put p (f ++ [d]) [] } })

/-- The descriptors a CHAIN heads: 0 where a descriptor is no CHAIN that passes its own checks (R424, R429). -/
def chainLen (version : Nat) (d : List Byte) : Nat :=
  if dType d = 8 ∧ typeIn version 8 ∧ fieldsOk d then bits (dw d 5) 6 0 else 0

/-- The lowest free journal indexes. -/
def freeJournal : Nat → Nat → Map Jent → List Nat
  | 0, _, _ => []
  | k + 1, i, [] => i :: freeJournal k (i + 1) []
  | k + 1, i, (j, e) :: r =>
    if i < j then i :: freeJournal k (i + 1) ((j, e) :: r) else freeJournal (k + 1) (j + 1) r

/-- One descriptor is accepted at a journal index (R417, R432): its entry is written, and it keeps the target entries it
was checked against (R441). -/
def State.acceptOne (s : State) (p i : Nat) (d : List Byte) (head : Option Nat) (members : List Nat) : State :=
  let q := s.qp p
  let v := s.vcf q.vcf
  let tgt (h : Nat) : Option (Word × Word × Word) := if h < v.entries then some (v.targets.get h (0, 0, 0)) else none
  let seq := s.live.ch.seq + 1
  let o : Op := { desc := d, pool := p, head := head, members := members, target := tgt (bits (dw d 0) 47 32),
                  mirror := tgt (bits (dw d 5) 15 0), checked := false, started := false, fin := none, degraded := false,
                  raw := false, broken := 0, cpl := [] }
  let s := (s.withCh (fun c => { c with seq := seq })).setOp i o
  let s := s.setJent i { Jent.free with st := 1, vcf := q.vcf, qp := q.loc, sqSlot := q.accept, seq := seq, crc := crc32c d,
                                        tb := s.live.time }
  let s := s.setQp p { q with accept := if q.accept + 1 = q.sqN then 0 else q.accept + 1 }
  let used := s.nv.journal.length
  let s := if s.regF (offCh + 0x38) 45 23 < used then s.setRegF (offCh + 0x38) 45 23 used else s
  ((s.countJournal p).vcfStat q.vcf 0 1).vcfStat q.vcf 3 64

/-- Several descriptors are accepted, in slot order. -/
def State.acceptAll (s : State) (p : Nat) (head : Option Nat) : List (Nat × List Byte) → State
  | [] => s
  | (i, d) :: r => (s.acceptOne p i d head []).acceptAll p head r

/-- DESCRIPTOR_ACCEPT (R417, R418, R429): the next descriptor, or a CHAIN with its members, is accepted; acceptance waits
while the journal is full or the VCF holds JOURNAL_CAP entries, and each descriptor's wait is counted once. -/
def execDescriptorAccept (pool : Fin 16384) (s : State) : Out :=
  .next (
    let p := pool.val
    let q := s.qp p
    let v := s.vcf q.vcf
    match s.vol.fetched.get p [] with
    | [] => s
    | d :: r =>
      let n := chainLen v.version d
      if ¬ s.accepting p ∨ r.length < n then s
      else
        let used := (s.nv.journal.filter (fun e => decide (e.2.vcf = q.vcf))).length
        let full := decide (4194304 < s.nv.journal.length + n + 1)
        if full ∨ v.cap < used + n + 1 then
          if s.vol.waited.contains p then s
          else
            let s := { s with vol := { s.vol with waited := p :: s.vol.waited } }.vcfStat q.vcf 6 1
            if full then s.chEvent 0 else s
        else
          let idx := freeJournal (n + 1) 0 s.nv.journal
          let h := idx.headD 0
          let s := { s with vol := { s.vol with fetched := s.vol.fetched.put p (r.drop n) [], waited := s.vol.waited.erase p } }
          let s := s.acceptOne p h d none idx.tail
          s.acceptAll p (some h) (idx.tail.zip (r.take n)))

/-! ## Starting (R428, R429, R439) -/

/-- Whether an operation may start or go on: barriers, slot order, its place in a chain, the controllers verified after a resume (R445). -/
def State.mayStart (s : State) (i : Nat) (o : Op) : Bool :=
  let j := s.jent i
  let earlier := s.live.ch.ops.filter (fun e => decide ((s.jent e.1).seq < j.seq ∧ (s.jent e.1).vcf = j.vcf))
  let barred := earlier.any (fun e => decide (dType e.2.desc = 9) && e.2.head.isNone &&
    (decide (e.2.pool = o.pool) || bit (dw e.2.desc 0) 10))
  let order := o.started || earlier.all (fun e => decide (e.2.pool ≠ o.pool) || e.2.started || e.2.fin.isSome ||
    decide (dType e.2.desc = 8 ∧ e.2.head = none) || decide (dType e.2.desc = 9))
  let chain := match o.head with
    | none => true
    | some h => earlier.all (fun e => decide (e.2.head ≠ some h) || e.2.fin.isSome)
  s.chOn && s.vol.verifying.isEmpty && o.fin.isNone && decide (j.st = 1 ∨ j.st = 2) && !barred && order && chain

/-- Whether a type runs in steps (R439). -/
def stepType (t : Nat) : Bool := decide (1 ≤ t ∧ t ≤ 7)

/-- Whether an operation has a step ready to start that no engine of another chapter holds back. -/
def State.ready (s : State) (i : Nat) (o : Op) : Bool :=
  decide (1 ≤ dType o.desc ∧ dType o.desc ≤ 4) && s.mayStart i o && (s.step? i).isNone && (s.engineFor o.pool).isSome

/-- Whether a VCF has some of its share of the scheduling round left (R440). -/
def State.shareLeft (s : State) (n : Nat) : Bool := decide ((s.vol.turns.get n (0, 0)).1 < (s.vcf n).share)

/-- How far a queue pair of a VCF is from the one served next (R440). -/
def State.turnDist (s : State) (n q : Nat) : Nat := (q + 256 - (s.vol.turns.get n (0, 0)).2) % 256

/-- Whether the scheduler starts an operation's step now (R440): the round leaves its VCF some of its share or is over, no other queue pair of
the VCF is before its own, and no older operation of its queue pair can start.  Only operations that `ready` names compete (log 20). -/
def State.turn (s : State) (i : Nat) (o : Op) : Bool :=
  let j := s.jent i
  let r := s.live.ch.ops.filter (fun e => decide (e.1 ≠ i) && s.ready e.1 e.2)
  (s.engineFor o.pool).isSome &&
    (s.shareLeft j.vcf || !r.any (fun e => s.shareLeft (s.jent e.1).vcf)) &&
    r.all (fun e =>
      let k := s.jent e.1
      decide (k.vcf ≠ j.vcf) ||
        (if e.2.pool = o.pool then decide (j.seq ≤ k.seq) else decide (s.turnDist j.vcf j.qp ≤ s.turnDist j.vcf k.qp)))

/-- An operation's step takes its turn; where its VCF's share is used up a new round begins (R440). -/
def State.takeTurn (s : State) (i : Nat) : State :=
  let j := s.jent i
  let t : Map (Nat × Nat) := if s.shareLeft j.vcf then s.vol.turns else (s.vol.turns.map (fun e => (e.1, (0, e.2.2)))).filter (fun e => decide (e.2 ≠ (0, 0)))
  let used := (t.get j.vcf (0, 0)).1
  { s with vol := { s.vol with turns := t.put j.vcf (used + 1, (j.qp + 1) % 256) (0, 0) } }

/-- The checks run once, before anything moves (R426): the operation has started, or it has ended. -/
def State.begin (s : State) (i : Nat) (o : Op) : State :=
  if o.checked then s
  else
    let j := s.jent i
    match (opCheck j.vcf (s.vcf j.vcf).version o).run s with
    | .ok _ s => s.setOp i { o with checked := true, started := true }
    | .error (0x100, _) _ => s
    | .error (st, det) s => s.finish i st 0 det

/-- A type's row: the operation of that type starts its next step, when it may and it is its turn. -/
def State.typeRow (s : State) (i : Nat) (types : Nat → Bool) (run : State → Op → State) : State :=
  match s.op? i with
  | none => s
  | some o =>
    if ¬ types (dType o.desc) ∨ ¬ s.mayStart i o ∨ (s.step? i).isSome ∨ (stepType (dType o.desc) ∧ ¬ s.turn i o) then s
    else
      let s := s.begin i o
      match s.op? i with
      | none => s
      | some o =>
        if ¬ o.checked ∨ o.fin.isSome then s
        else
          let s := run s o
          if (s.step? i).isSome ∨ (1 ≤ dType o.desc ∧ dType o.desc ≤ 4) then s.takeTurn i else s

/-- NOP (R424): completes with SUCCESS.  A descriptor whose type does not exist ends here with BAD_TYPE. -/
def execNop (op : BitVec 22) (s : State) : Out :=
  .next (s.typeRow op.toNat (fun t => decide (t = 0 ∨ 9 < t)) (fun s _ => s.finish op.toNat 0 0 0))

/-- CHAIN (R429): completes after its last member, with the status of the first that failed. -/
def execChain (op : BitVec 22) (s : State) : Out :=
  .next (s.typeRow op.toNat (fun t => decide (t = 8)) (fun s o =>
    if o.members.all (fun m => match s.op? m with | some x => decide (x.head ≠ some op.toNat) || x.fin.isSome | none => true) then
      s.finish op.toNat o.broken 0 0
    else s))

/-- BARRIER (R428): completes when every earlier operation of its scope has completed. -/
def execBarrier (op : BitVec 22) (s : State) : Out :=
  .next (s.typeRow op.toNat (fun t => decide (t = 9)) (fun s o =>
    let j := s.jent op.toNat
    if s.live.ch.ops.any (fun e => decide ((s.jent e.1).seq < j.seq ∧ (s.jent e.1).vcf = j.vcf) &&
        (decide (e.2.pool = o.pool) || bit (dw o.desc 0) 10)) then s
    else s.finish op.toNat 0 0 0))

/-- The most input one step covers (R439): 256 KiB. -/
def stepMax : Nat := 262144

/-- A step begins: its engine counts it. -/
def State.startStep (s : State) (i : Nat) (x : Step) : State := (s.setStep i (some x)).vcfStat (s.jent i).vcf 7 1

/-- COPY (R424, R427, R439): one step moves up to 256 KiB. -/
def execCopy (op : BitVec 22) (s : State) : Out :=
  .next (s.typeRow op.toNat (fun t => decide (t = 4)) (fun s o =>
    let i := op.toNat
    let j := s.jent i
    match s.engineFor o.pool with
    | none => s
    | some e =>
      s.runCh i (do
        let k := min stepMax (dLen o.desc - j.done)
        let r ← ranges1 j.vcf o.desc
        let src ← chPiecesAll j.vcf false (sliceRanges r j.done k)
        let dst ← chPieces j.vcf true (dw o.desc 3 + BitVec.ofNat 64 j.done) k
        let d ← chReadPieces j.done src
        chWritePieces dst d
        modify (fun s => ((s.vcfStat j.vcf 3 k).vcfStat j.vcf 4 k).startStep i
          ⟨e, j.done, k, [], none, true, true, none, none, 0, 0, none⟩))))

/-- A step whose parts are both complete and whose operation's result it fixes ends the operation. -/
def State.settle (s : State) (i : Nat) : State :=
  match s.step? i with
  | none => s
  | some x =>
    match x.fin with
    | some (st, done, det) => if x.localDone ∧ x.remoteDone then s.finish i st done det else s
    | none => s

/-- A MIRROR-WRITE whose last step is complete (R481, R484): without its partner, POLICY decides. -/
def State.mirrorEnd (s : State) (i : Nat) (o : Op) : State :=
  let x := match o.mirror with | some t => bits t.2.1 11 0 | none => 0
  if ¬ o.degraded then s.finish i 0 (dLen o.desc) 0
  else if bit ((s.live.xs.get x Xing.none).entry.headD 0) 4 then
    (s.setOp i { o with degraded := false }).finish i 0x12 (s.jent i).done 0
  else
    let s := s.finish i 0 (dLen o.desc) 0
    s.addStat (2 ^ 32 + 64 * x) 7 1

/-- STEP_COMPLETE (R433, R439, R481): the step's effects are complete and its journal entry is updated; the last step fixes
SUCCESS. -/
def State.stepComplete (s : State) (i : Nat) : State :=
  match s.step? i, s.op? i with
  | some x, some o =>
    if ¬ x.localDone ∨ ¬ x.remoteDone then s
    else
      let s := s.countCh x.eng 0x02 1
      match x.fin with
      | some (st, done, det) => s.finish i st done det
      | none =>
        let j := s.jent i
        let s := (s.setJent i { j with st := 2, done := j.done + x.len, out := x.out, ts := x.ts }).setStep i none
        let s := s.countCh x.eng 0x06 1
        if dType o.desc = 3 ∧ dLen o.desc ≤ j.done + x.len then s.mirrorEnd i o
        else if dType o.desc ≤ 4 ∧ dLen o.desc ≤ j.done + x.len then s.finish i 0 (dLen o.desc) 0 else s
  | _, _ => s

/-! ## Paths (R442 to R445) -/

/-- The controllers of a path group in order (R453). -/
def groupMembers (g : Word) : List Nat := (List.range (min 8 (bits g 51 48))).map (fun i => bits g (6 * i + 5) (6 * i))

/-- CH_CTRLR_c. -/
def offCtrlr (c : Nat) : Nat := offCh + 0x2000 + 8 * c

/-- Whether a controller's path is usable (R444). -/
def State.usablePath (s : State) (c : Nat) : Bool := decide (s.regF (offCtrlr c) 22 20 = 2)

/-- The path of the next step of a group (R444), and the state with ROUND's turn taken. -/
def State.choosePath (s : State) (g : Nat) : Option Nat × State :=
  let r := s.reg (offCh + 0x1000 + 8 * g)
  let l := groupMembers r
  if bit r 52 then
    let k := s.live.ch.nextPath.get g 0
    let turn := (List.range l.length).map (fun i => (k + i) % l.length)
    match turn.find? (fun i => s.usablePath (l.getD i 64)) with
    | none => (none, s)
    | some i => (l[i]?, s.withCh (fun c => { c with nextPath := c.nextPath.put g ((i + 1) % l.length) 0 }))
  else (l.find? s.usablePath, s)

/-- The NVMe part of a step goes to a path, or waits for one (R444). -/
def State.dispatchNvme (s : State) (i : Nat) : State :=
  match s.step? i, s.op? i with
  | some x, some o =>
    match o.target with
    | none => s
    | some t =>
      if x.localDone ∨ x.ctrlr.isSome then s
      else match s.choosePath (bits t.1 22 16) with
        | (none, s) => s
        | (some c, s) => (s.setStep i (some { x with ctrlr := some c })).countCh x.eng 0x05 1
  | _, _ => s

/-- What a step of an NVMe target may cover (R439): the maximum transfer size of its group's controllers, in whole blocks.
PRESUMED (log 14): MDTS counts powers of two of 4 KiB pages, 0 for no limit. -/
def State.nvmeMax (s : State) (t : Word × Word × Word) : Nat :=
  let m := (groupMembers (s.reg (offCh + 0x1000 + 8 * bits t.1 22 16))).foldl (fun m c =>
    let d := s.regF (offCtrlr c) 31 24
    if d = 0 then m else min m (4096 * 2 ^ d)) stepMax
  let blk := (s.nsOf t).2.1
  if blk = 0 then m else max blk (m / blk * blk)

/-- A path fails (R444): its controller is reset, and its steps run again on another path with REEXEC (R436). -/
def State.failPath (s : State) (c : Nat) : State :=
  if s.regF (offCtrlr c) 22 20 ≠ 1 ∧ s.regF (offCtrlr c) 22 20 ≠ 2 then s
  else
    let s := { s with vol := { s.vol with verifying := s.vol.verifying.erase c } }.setRegF (offCtrlr c) 22 20 3
    let s := (s.setRegF (offCtrlr c) 47 32 (min 0xFFFF (s.regF (offCtrlr c) 47 32 + 1))).chEvent 1
    let hit := s.vol.steps.filterMap (fun e => match e.2 with
      | some x => if x.ctrlr = some c ∧ ¬ x.localDone then some (e.1, x) else none
      | none => none)
    hit.foldl (fun s e =>
      let s := (s.countCh e.2.eng 0x06 1).setJent e.1 { s.jent e.1 with reexec := true }
      (s.setStep e.1 (some { e.2 with ctrlr := none })).dispatchNvme e.1) s

/-- NVME_COMPLETION (R436, R444): success, a path-related status, or MEDIA_ERROR. -/
def execNvmeCompletion (op : BitVec 22) (sct : BitVec 3) (sc : BitVec 8) (s : State) : Out :=
  .next (
    let i := op.toNat
    match s.step? i with
    | none => s
    | some x =>
      match x.ctrlr with
      | none => s
      | some c =>
        if x.localDone ∨ s.pwr.phase ≠ .running then s
        else if sct = 3 then s.failPath c
        else if sct = 0 ∧ sc = 0 then (s.setStep i (some { x with localDone := true })).settle i
        else (s.setStep i (some { x with
          localDone := true, fin := some (0x0C, (s.jent i).done, sct.toNat * 256 + sc.toNat) })).settle i)

/-- NVME_TIMEOUT (R444). -/
def execNvmeTimeout (op : BitVec 22) (s : State) : Out :=
  .next (match s.step? op.toNat with
    | none => s
    | some x => match x.ctrlr with
      | none => s
      | some c => if x.localDone ∨ s.pwr.phase ≠ .running then s else s.failPath c)

/-- CONTROLLER_RESET_DONE (R444, R445): a verified controller is usable again, and steps that wait take its path. -/
def execControllerResetDone (ctrlr : Fin 64) (verified : Bool) (s : State) : Out :=
  .next (
    let c := ctrlr.val
    let st := s.regF (offCtrlr c) 22 20
    if ¬ s.mainOn ∨ (st ≠ 1 ∧ st ≠ 3) then s
    else
    let s : State := { s with vol := { s.vol with verifying := s.vol.verifying.erase c } }
    if ¬ verified then s.setRegF (offCtrlr c) 22 20 4
    else
      let s := (s.setRegF (offCtrlr c) 22 20 2).chEvent 2
      (s.vol.steps.map (·.1)).foldl State.dispatchNvme s)

/-- CONTROLLER_FATAL_STATUS (R444). -/
def execControllerFatalStatus (ctrlr : Fin 64) (s : State) : Out :=
  .next (if s.mainOn then s.failPath ctrlr.val else s)

/-- NVME_UPSTREAM_ACCESS (R443): within the memory of the controller's own steps in flight it is performed; any other access
is dropped, logged, and fails the path. -/
def execNvmeUpstreamAccess (ctrlr : Fin 64) (write : Bool) (addr : BitVec 52) (data : List Byte) (len : Nat) (s : State) : Out :=
  .next (
    let a := addr.toNat
    let n := if write then data.length else len
    let st := s.regF (offCtrlr ctrlr.val) 22 20
    if s.pwr.phase ≠ .running ∨ (st ≠ 1 ∧ st ≠ 2) ∨ n = 0 then s
    else
      let mine := s.vol.steps.filterMap (fun e => match e.2, s.op? e.1 with
        | some x, some o => if x.ctrlr = some ctrlr.val ∧ ¬ x.localDone ∧ (dType o.desc = 1) = (write = true) then some x.mem else none
        | _, _ => none)
      let inside := (piecesOf a n).all (fun p => mine.flatten.any (fun r =>
        decide (r.1 ≤ p.1 * 256 + p.2.1 ∧ p.1 * 256 + p.2.1 + p.2.2 ≤ r.1 + r.2)))
      if ¬ inside then (s.chEvent 4).failPath ctrlr.val
      else if write then
        let ops := s.vol.steps.filterMap (fun e => match e.2 with
          | some x => if x.ctrlr = some ctrlr.val then some e.1 else none
          | none => none)
        match (chWritePieces ((piecesOf a n).map (fun p => (p.1 * 256 + p.2.1, p.2.2))) data).run s with
        | .error (0x100, _) _ => s
        | .ok _ s1 => ops.foldl (fun t i => s.noteHeld t i) s1
        | .error _ s1 => s1
      else match s.readAbs a n with
        | .ok _ s => s
        | .bus s => s
        | .wait => s)

/-- The cipher engines a VCF's steps may use (R518): those dedicated to it, or where there are none, those of no owner. -/
def State.cipFor (s : State) (n : Nat) : List Nat :=
  let own (e : Nat) : Nat := s.regF (offCip e) 15 0
  let mine := (List.range 16).filter (fun e => decide (own e = n + 1))
  if mine.isEmpty then (List.range 16).filter (fun e => decide (own e = 0 ∨ own e = 0x400)) else mine

/-- PATH_WAIT_EXPIRY (R444, R498): an operation that waits for a path or an engine ends with PATH_LOST. -/
def execPathWaitExpiry (op : BitVec 22) (s : State) : Out :=
  .next (
    let i := op.toNat
    match s.op? i with
    | none => s
    | some o =>
      let d := s.chDone i 0x0D
      let down (f : Nat → Nat) (l : List Nat) : Bool := l.all (fun e => decide (s.regF (f e) 1 0 ≠ 0))
      if s.pwr.phase ≠ .running ∨ o.fin.isSome then s
      else match s.step? i with
        | some x =>
          if x.localDone ∨ x.ctrlr.isSome then s
          else (s.setStep i (some { x with localDone := true, fin := some (0x0D, d, 0) })).settle i
        | none =>
          if o.checked ∧ (dType o.desc = 5 ∨ dType o.desc = 6) ∧ down offCmp (List.range 8) then s.finish i 0x0D d 0x100
          else if o.checked ∧ dType o.desc = 7 ∧ down (fun e => offCip e + 0x10) (s.cipFor (s.jent i).vcf) then
            s.finish i 0x0D d 0x200
          else s)

/-! ## PCIe (R446, R447, R456 to R458) -/

/-- PCIE_LINK_l. -/
def offPl (l : Nat) : Nat := offPcie + 8 * l

/-- MOD_PRESENT.PCIE_PORT follows the links of a root port (R40). -/
def State.pciePresent (s : State) (p : Nat) : State :=
  s.present (16 + p) ((List.range 4).any (fun k => decide (s.regF (offPl (4 * p + k)) 2 0 = 3)))

/-- A link is UP: the controllers on it that the channel plan leaves to the channel are initialised (R442, R597). -/
def State.pcieUp (s : State) (l : Nat) (speed width : Nat) : State :=
  let s := s.setReg (offPl l) ((s.reg (offPl l) &&& msk 31 16) ||| field 2 0 3 ||| field 6 4 speed ||| field 11 7 width)
  let s := s.pciePresent (l / 4)
  if s.live.plan.get (0x0702 * 65536 + l) 0 = 1 then s
  else ((List.range 64).filter (fun c => decide (Config.ctrlrLink c = l))).foldl (fun s c =>
    let (bdf, mdts) := Config.ctrlrInfo c
    s.setReg (offCtrlr c) ((s.reg (offCtrlr c) &&& msk 47 32) ||| field 15 0 bdf.toNat ||| field 19 16 l ||| field 22 20 1 |||
      field 31 24 mdts.toNat)) s

/-- PCIE_LINK_UP (R446). -/
def execPcieLinkUp (link : Fin 16) (speed : BitVec 3) (width : BitVec 5) (s : State) : Out :=
  .next (
    let st := s.regF (offPl link.val) 2 0
    if ¬ s.mainOn ∨ (st ≠ 1 ∧ st ≠ 2) then s else s.pcieUp link.val speed.toNat width.toNat)

/-- A link leaves UP for another state: the paths over it fail (R444). -/
def State.pcieDrop (s : State) (l st : Nat) : State :=
  let s := (s.setRegF (offPl l) 2 0 st).pciePresent (l / 4)
  ((List.range 64).filter (fun c => decide (s.regF (offCtrlr c) 19 16 = l ∧ s.regF (offCtrlr c) 22 20 ≠ 0))).foldl State.failPath s

/-- PCIE_LINK_DOWN (R444, R446): logged, and reported. -/
def execPcieLinkDown (link : Fin 16) (s : State) : Out :=
  .next (
    let l := link.val
    if ¬ s.mainOn ∨ s.regF (offPl l) 2 0 ≠ 3 then s
    else
      let s := s.setRegF (offPl l) 31 16 (min 0xFFFF (s.regF (offPl l) 31 16 + 1))
      (s.pcieDrop l 1).report (0x1C8 + l))

/-- Marks the lines of written pieces poisoned (R447). -/
def State.poisonPieces (s : State) (l : List (Nat × Nat)) : State :=
  l.foldl (fun s p => match s.lineRef (p.1 / 256) with
    | none => s
    | some r => { s with mem := { s.mem with poison := s.mem.poison.put r.key true false } }.writeHome r false) s

/-- A dropped access of a function (R447, R452). -/
def State.dmaFault (s : State) (f : Nat) (flag : Bool) : State :=
  let s := if flag then s.setRegF (offPcie + 0x100 + 8 * f) 21 21 1 else s
  s.chEvent 4

/-- UPSTREAM_DMA (R366, R447): until the quiesce point of a landing, an assigned function's event write, write or read. -/
def execUpstreamDma (func : Fin 64) (write : Bool) (addr : BitVec 52) (data : List Byte) (len : Nat) (poison : Bool)
    (s : State) : Out :=
  .next (
    let f := func.val
    let r := s.reg (offPcie + 0x100 + 8 * f)
    let z := addr.toNat
    let on := decide (s.pwr.phase = .running ∨ (s.pwr.phase = .landing ∧ ¬ s.pwr.land.quiesced))
    if ¬ on ∨ ¬ bit r 20 then s
    else if write ∧ z = 0xFFFFFFFFFF000 ∧ data.length = 4 then
      let src := leNat data % 4096
      if bits r 39 28 ≤ src ∧ src < bits r 39 28 + bits r 51 40 then s.raise src else s.dmaFault f false
    else
      let n := if write then data.length else len
      match s.hubPieces (bits r 27 22) z n write with
      | none => s.dmaFault f true
      | some l =>
        if write then
          match (chWritePieces l data).run s with
          | .error (0x100, _) _ => s
          | .ok _ s => if poison then s.poisonPieces l else s
          | .error _ s => s
        else match (chReadPieces 0 l).run s with
          | .ok _ s => s
          | .error _ s => s)

/-! ## Landing, engines, starts -/

/-- Steps abandoned (R366, R436): an NVMe part that may have executed sets REEXEC. -/
def State.abandonSteps (s : State) (which : Nat → Step → Bool) : State :=
  s.vol.steps.foldl (fun s e => match e.2 with
    | none => s
    | some x =>
      if ¬ which e.1 x then s
      else
        let s := if x.ctrlr.isSome then (s.countCh x.eng 0x06 1).setJent e.1 { s.jent e.1 with reexec := true } else s
        s.setStep e.1 none) s

/-- A descriptor is read again and compared with its entry (R434). -/
def State.recheck (s : State) (i : Nat) : State :=
  match s.op? i with
  | none => s
  | some o =>
    let j := s.jent i
    if (j.st ≠ 1 ∧ j.st ≠ 2) ∨ o.fin.isSome then s
    else
      let q := s.qp o.pool
      match s.hubPieces (s.vcf j.vcf).part (q.sq + 64 * j.sqSlot) 64 false with
      | none => s
      | some l =>
        match (chReadPieces 0 l).run s with
        | .error _ s => s
        | .ok d s => if crc32c d = j.crc then s else (s.chEvent 5).finish i 0x1A j.done 0

/-- The channel after a resume (R433, R434, R445): the controllers on links that are UP are reset, entries of no state are freed and counted,
descriptors compared, operations start again once the controllers are verified. -/
def State.channelResume (s : State) : State :=
  let s := (List.range 64).foldl (fun s c =>
    let st := s.regF (offCtrlr c) 22 20
    if st = 0 then s
    else if s.regF (offPcie + 8 * s.regF (offCtrlr c) 19 16) 2 0 ≠ 3 then s.setRegF (offCtrlr c) 22 20 3
    else
      let s := { s with vol := { s.vol with verifying := s.vol.verifying ++ [c] } }
      (s.setRegF (offCtrlr c) 22 20 1).setRegF (offCtrlr c) 47 32 (min 0xFFFF (s.regF (offCtrlr c) 47 32 + 1))) s
  let odd := (s.nv.journal.filter (fun e => decide (4 ≤ e.2.st))).map (·.1)
  let s := odd.foldl (fun s i => (s.setJent i Jent.free).withCh (fun c => { c with ops := c.ops.erase i, waitCq := c.waitCq.erase i })) s
  let s := s.setRegF (offCh + 0x38) 61 46 (min 0xFFFF (s.regF (offCh + 0x38) 61 46 + odd.length))
  let s := s.withCh (fun c => { c with ops := c.ops.map (fun e =>
    (e.1, { e.2 with started := e.2.fin.isSome || decide ((s.jent e.1).st = 2) })) })
  (s.live.ch.ops.map (·.1)).foldl State.recheck s

/-- A channel engine leaves service, or is reset (R436, R453, R560): its steps run again elsewhere. -/
def State.engineDrop (s : State) (e : Nat) (fenced : Bool) : State :=
  let s := if fenced then (s.setRegF (offCh + 0x100 + 8 * e) 1 0 1).setRegF (offCh + 0x40) 3 3 1 else s
  let hit := s.vol.steps.filterMap (fun x => match x.2 with | some y => if y.eng = e then some x.1 else none | none => none)
  let s := s.abandonSteps (fun _ x => decide (x.eng = e))
  hit.foldl State.recheck s

/-- The channel at a cold start (R438): open entries are counted as orphans; they are freed when ENABLE is first written. -/
def State.channelCold (s : State) : State := s.setRegF (offCh + 0x38) 61 46 (min 0xFFFF (s.nv.journal.filter (fun e => decide (e.2.st ≠ 0))).length)

/-- CH_CTL as it is written (R438, R450). -/
def State.chCtlWrite (s : State) (v : Word) : State :=
  let was := bit (s.reg offCh) 0
  let s := s.setReg offCh (field 0 0 (b2n (bit v 0)) ||| field 31 16 (clampTo 1 60000 (bits v 31 16)) |||
    field 47 32 (min 60000 (bits v 47 32)))
  if bit v 0 ∧ ¬ was then
    { s with nv := { s.nv with journal := s.nv.journal.filter (fun e => (s.op? e.1).isSome) } }
  else s

/-- CH_STATUS (R451). -/
def State.chStatus (s : State) : Word :=
  let srcs := (s.live.ch.vcfs.map (fun e => e.2.vecs.length)).sum + (s.funcRanges.map (·.2)).sum
  field 14 0 (16384 - s.live.ch.qps.length) ||| field 27 16 (3584 - srcs) |||
    field 41 32 (s.live.ch.vcfs.filter (fun e => decide (e.2.st = 2))).length

/-- CH_VCF_n (R454). -/
def State.chVcfRead (s : State) (n : Nat) : Word :=
  let v := s.vcf n
  let used := (s.nv.journal.filter (fun e => decide (e.2.vcf = n) && (s.op? e.1).isSome)).length
  field 1 0 v.st ||| field 7 2 v.part ||| field 15 8 v.version ||| field 23 16 v.share ||| field 46 24 used

/-- VCF_STATUS (R422). -/
def State.vcfStatus (s : State) (n : Nat) : Word :=
  let v := s.vcf n
  field 1 0 v.st ||| (s.reg (offVcf n + 0x808) &&& msk 2 2) ||| field 15 8 (if v.st = 2 then v.version else 0) ||| field 21 16 v.part |||
    field 40 32 (s.qpsOf n).length ||| field 47 41 v.vecs.length

/-- CH_ENGINE_e (R453). -/
def State.chEngineRead (s : State) (e : Nat) : Word :=
  let n := (s.vol.steps.filter (fun x => match x.2 with | some y => decide (y.eng = e) | none => false)).length
  (s.reg (offCh + 0x100 + 8 * e) &&& msk 1 0) ||| field 8 2 n

end Sys2Proof.Machine
end

