-- ==== Sys2Proof/Machine/Deflate.lean ====
section
/-! DEFINITION. DEFLATE as the compression engines read and write it (R500 to R507): inflating with its restart points, and
putting coded and stored blocks together.  PRESUMED: RFC 1950, 1951 and 1952, which the spec names (log 14). -/

namespace Sys2Proof.Machine

/-! ## Checks -/

/-- The polynomial of CRC-32. -/
def poly32 : BitVec 32 := 0xEDB88320

/-- CRC-32 (RFC 1952). -/
def crc32 (l : List Byte) : BitVec 32 := ~~~ crcOver poly32 0xFFFFFFFF l

/-- Adler-32 (RFC 1950). -/
def adler32 (l : List Byte) : Nat :=
  let (a, b) := l.foldl (fun (p : Nat × Nat) x => let a := (p.1 + x.toNat) % 65521; (a, (p.2 + a) % 65521)) (1, 0)
  b * 65536 + a

/-! ## Inflating -/

/-- `n` bits at a bit position, the first the lowest; `none` past `lim` bits. -/
def getBits (src : Array Byte) (lim pos n : Nat) : Option Nat :=
  if lim < pos + n then none
  else some ((List.range n).foldl (fun v i =>
    v + b2n ((src.getD ((pos + i) / 8) 0).getLsbD ((pos + i) % 8)) * 2 ^ i) 0)

/-- A canonical code: how many codes each length has, and the symbols by length. -/
structure Huff where
  count : List Nat
  syms : Array Nat

/-- The code of a list of lengths; `none` for one that is over-subscribed, or incomplete with more than one code. -/
def mkHuff (lens : List Nat) : Option Huff :=
  let count := (List.range 16).map (fun l => if l = 0 then 0 else (lens.filter (· = l)).length)
  let left := (List.range 15).foldl (fun (v : Int) i => 2 * v - (count.getD (i + 1) 0 : Nat)) 1
  let idx := lens.zipIdx
  let syms := ((List.range 15).map (fun l => (idx.filter (fun e => decide (e.1 = l + 1))).map (·.2))).flatten
  if left < 0 ∨ (0 < left ∧ 1 < syms.length) then none else some ⟨count, syms.toArray⟩

/-- What reading at a position meets: a value and the next position, the end of the input, or an error. -/
inductive Got (α : Type) where
  | ok (a : α) (pos : Nat)
  | more
  | bad

/-- The next symbol of a code, trying lengths from `len` on. -/
def huffSym (h : Huff) (src : Array Byte) (lim : Nat) : Nat → Nat → Nat → Nat → Nat → Nat → Got Nat
  | 0, _, _, _, _, _ => .bad
  | fuel + 1, len, code, first, index, pos =>
    match getBits src lim pos 1 with
    | none => .more
    | some b =>
      let code := code + b
      let n := h.count.getD len 0
      if code < first + n then .ok (h.syms.getD (index + (code - first)) 0) (pos + 1)
      else huffSym h src lim fuel (len + 1) (2 * code) (2 * (first + n)) (index + n) (pos + 1)

/-- The next symbol at a position. -/
def Huff.sym (h : Huff) (src : Array Byte) (lim pos : Nat) : Got Nat := huffSym h src lim 15 1 0 0 0 pos

/-- Extra bits and base of a length symbol (RFC 1951). -/
def lenCode (s : Nat) : Nat × Nat :=
  if s < 265 then (0, s - 254) else if s = 285 then (0, 258)
  else let e := (s - 261) / 4; (e, 3 + (4 + (s - 261) % 4) * 2 ^ e)

/-- Extra bits and base of a distance symbol (RFC 1951). -/
def distCode (s : Nat) : Nat × Nat :=
  if s < 4 then (0, s + 1) else let e := (s - 2) / 2; (e, 1 + (2 + s % 2) * 2 ^ e)

/-- Copies `n` bytes from `d` bytes back. -/
def copyBack : Nat → Nat → Array Byte → Array Byte
  | 0, _, out => out
  | n + 1, d, out => copyBack n d (out.push (out.getD (out.size - d) 0))

/-- How a part of the stream ends. -/
inductive InfEnd where
  | block
  | more
  | full
  | bad
deriving DecidableEq, Repr

/-- The symbols of one block: ends at its end, at the end of the input, when the output reaches `cap`, or at an error. -/
def codes (lit dist : Huff) (src : Array Byte) (lim cap : Nat) : Nat → Nat → Array Byte → InfEnd × Nat × Array Byte
  | 0, pos, out => (.bad, pos, out)
  | fuel + 1, pos, out =>
    if cap ≤ out.size then (.full, pos, out)
    else match lit.sym src lim pos with
    | .more => (.more, pos, out)
    | .bad => (.bad, pos, out)
    | .ok s p =>
      if s < 256 then codes lit dist src lim cap fuel p (out.push (BitVec.ofNat 8 s))
      else if s = 256 then (.block, p, out)
      else if 285 < s then (.bad, pos, out)
      else
        let (e, b) := lenCode s
        match getBits src lim p e with
        | none => (.more, pos, out)
        | some x =>
          match dist.sym src lim (p + e) with
          | .more => (.more, pos, out)
          | .bad => (.bad, pos, out)
          | .ok ds dp =>
            let (de, db) := distCode ds
            match getBits src lim dp de with
            | none => (.more, pos, out)
            | some dx =>
              if 29 < ds ∨ out.size < db + dx then (.bad, pos, out)
              else codes lit dist src lim cap fuel (dp + de) (copyBack (b + x) (db + dx) out)

/-- The fixed code's literal and distance lengths. -/
def fixedLit : List Nat :=
  List.replicate 144 8 ++ List.replicate 112 9 ++ List.replicate 24 7 ++ List.replicate 8 8

/-- The order in which code-length lengths are sent. -/
def clOrder : List Nat := [16, 17, 18, 0, 8, 7, 9, 6, 10, 5, 11, 4, 12, 3, 13, 2, 14, 1, 15]

/-- The code lengths of a dynamic block, `want` of them. -/
def readLens (h : Huff) (src : Array Byte) (lim want : Nat) : Nat → Nat → List Nat → Got (List Nat)
  | 0, _, _ => .bad
  | fuel + 1, pos, acc =>
    if acc.length = want then .ok acc.reverse pos
    else if want < acc.length then .bad
    else match h.sym src lim pos with
    | .more => .more
    | .bad => .bad
    | .ok s p =>
      if s < 16 then readLens h src lim want fuel p (s :: acc)
      else
        let n := if s = 16 then 2 else if s = 17 then 3 else 7
        match getBits src lim p n with
        | none => .more
        | some x =>
          if s = 16 then
            match acc with
            | [] => .bad
            | l :: _ => readLens h src lim want fuel (p + n) (List.replicate (3 + x) l ++ acc)
          else readLens h src lim want fuel (p + n) (List.replicate ((if s = 17 then 3 else 11) + x) 0 ++ acc)

/-- The codes of a dynamic block. -/
def dynCodes (src : Array Byte) (lim pos : Nat) : Got (Huff × Huff) :=
  match getBits src lim pos 14 with
  | none => .more
  | some v =>
    let nl := v % 32 + 257
    let nd := v / 32 % 32 + 1
    let nc := v / 1024 + 4
    match getBits src lim (pos + 14) (3 * nc) with
    | none => .more
    | some c =>
      let cl := (List.range 19).map (fun s =>
        let i := clOrder.idxOf s
        if i < nc then c / 8 ^ i % 8 else 0)
      match mkHuff cl with
      | none => .bad
      | some h =>
        match readLens h src lim (nl + nd) (nl + nd + 1) (pos + 14 + 3 * nc) [] with
        | .more => .more
        | .bad => .bad
        | .ok l p =>
          match mkHuff (l.take nl), mkHuff (l.drop nl) with
          | some a, some b => if 286 < nl ∨ l.getD 256 0 = 0 then .bad else .ok (a, b) p
          | _, _ => .bad

/-- Where inflating stands: bit position, output, the last block header reached (bit position, output before it), and whether
the final block has begun. -/
structure Inf where
  pos : Nat
  out : Array Byte
  head : Nat × Nat
  last : Bool

/-- Copies stored bytes. -/
def storedBytes (src : Array Byte) (lim cap : Nat) : Nat → Nat → Array Byte → InfEnd × Nat × Array Byte
  | 0, pos, out => (.block, pos, out)
  | n + 1, pos, out =>
    if cap ≤ out.size then (.full, pos, out)
    else match getBits src lim pos 8 with
    | none => (.more, pos, out)
    | some b => storedBytes src lim cap n (pos + 8) (out.push (BitVec.ofNat 8 b))

/-- One block. -/
def infBlock (src : Array Byte) (lim cap : Nat) (z : Inf) : InfEnd × Inf :=
  let z := { z with head := (z.pos, z.out.size) }
  match getBits src lim z.pos 3 with
  | none => (.more, z)
  | some h =>
    let done (r : InfEnd × Nat × Array Byte) : InfEnd × Inf :=
      (r.1, { z with pos := r.2.1, out := r.2.2, last := decide (h % 2 = 1) })
    let ty := h / 2
    if ty = 0 then
      let p := (z.pos + 3 + 7) / 8 * 8
      match getBits src lim p 32 with
      | none => (.more, z)
      | some v =>
        if v % 65536 + v / 65536 ≠ 65535 then (.bad, z)
        else done (storedBytes src lim cap (v % 65536) (p + 32) z.out)
    else if ty = 1 then
      match mkHuff fixedLit, mkHuff (List.replicate 30 5) with
      | some a, some b => done (codes a b src lim cap (lim + 1) (z.pos + 3) z.out)
      | some a, none => done (codes a ⟨(List.range 16).map (fun l => if l = 5 then 30 else 0), (Array.range 30)⟩ src lim cap
          (lim + 1) (z.pos + 3) z.out)
      | _, _ => (.bad, z)
    else if ty = 2 then
      match dynCodes src lim (z.pos + 3) with
      | .more => (.more, z)
      | .bad => (.bad, z)
      | .ok (a, b) p => done (codes a b src lim cap (lim + 1) p z.out)
    else (.bad, z)

/-- Blocks until the final one ends, the input or the output limit is reached, or an error. -/
def inflate (src : Array Byte) (lim cap : Nat) : Nat → Inf → InfEnd × Inf
  | 0, z => (.bad, z)
  | fuel + 1, z =>
    match infBlock src lim cap z with
    | (.block, z) => if z.last then (.block, z) else inflate src lim cap fuel z
    | r => r

/-- The bytes of the header of a framing (R505): its length, `none` where the input ends or it is in error. -/
def frameHeader (framing : Nat) (l : List Byte) : Got Unit :=
  if framing = 0 then .ok () 0
  else if framing = 1 then
    match l with
    | c :: f :: _ =>
      if c.toNat % 16 = 8 ∧ c.toNat / 16 ≤ 7 ∧ (c.toNat * 256 + f.toNat) % 31 = 0 ∧ ¬ f.getLsbD 5 then .ok () 2 else .bad
    | _ => .more
  else if l.length < 10 then .more
  else if l.take 3 ≠ [0x1F, 0x8B, 8] ∨ 32 ≤ (l.getD 3 0).toNat then .bad
  else
    let f := l.getD 3 0
    let p := 10
    let p := if f.getLsbD 2 then p + 2 + leNat ((l.drop p).take 2) else p
    let z (p : Nat) : Nat := p + ((l.drop p).takeWhile (· ≠ 0)).length + 1
    let p := if f.getLsbD 3 then z p else p
    let p := if f.getLsbD 4 then z p else p
    let q := if f.getLsbD 1 then p + 2 else p
    if l.length < q then .more
    else if f.getLsbD 1 ∧ leNat ((l.drop p).take 2) ≠ (crc32 (l.take p)).toNat % 65536 then .bad
    else .ok () q

/-- The length of a framing's trailer. -/
def trailerLen (framing : Nat) : Nat := if framing = 0 then 0 else if framing = 1 then 4 else 8

/-- The trailer of a framing over the data (R502). -/
def trailer (framing : Nat) (data : List Byte) : List Byte :=
  if framing = 0 then [] else if framing = 1 then beBytes' (adler32 data) else toBytes (crc32 data).toNat 4 ++ toBytes data.length 4
where
  beBytes' (v : Nat) : List Byte := (toBytes v 4).reverse

/-- The header of a framing as COMPRESS writes it (R502). -/
def frameBytes (framing : Nat) : List Byte :=
  if framing = 0 then [] else if framing = 1 then [0x78, 0x9C] else [0x1F, 0x8B, 8, 0, 0, 0, 0, 0, 0, 0xFF]

/-! ## Compressing -/

/-- The `n` low bits of a number, the lowest first. -/
def bitsOf (v n : Nat) : List Bool := (List.range n).map (fun i => v.testBit i)

/-- Bytes as bits in stream order. -/
def byteBits (l : List Byte) : List Bool := (l.map (fun b => bitsOf b.toNat 8)).flatten

/-- A stored block at a bit position (R501). -/
def storedBlock (pos : Nat) (last : Bool) (d : List Byte) : List Bool :=
  let h := [last, false, false]
  h ++ List.replicate ((8 - (pos + 3) % 8) % 8) false ++ bitsOf d.length 16 ++ bitsOf (65535 - d.length) 16 ++ byteBits d

/-- The stored form of a block (R501): a full block as two. -/
def storedForm (pos : Nat) (last : Bool) (d : List Byte) : List Bool :=
  if d.length = 65536 then
    let a := storedBlock pos false (d.take 32768)
    a ++ storedBlock (pos + a.length) last (d.drop 32768)
  else storedBlock pos last d

/-- Block `i` of an input (R500). -/
def blockData (input : List Byte) (i : Nat) : List Byte := (input.drop (65536 * i)).take 65536

/-- The number of blocks of an input. -/
def blockCount (n : Nat) : Nat := (n + 65535) / 65536

/-- What a coded block is made of: a byte, or a match's length and distance. -/
inductive Tok where
  | lit (b : Byte)
  | ref (len dist : Nat)
deriving DecidableEq, Repr

/-- Whether R500 allows a match at `p` in a block that ends where the data do. -/
def matchOk (data : List Byte) (p len dist : Nat) : Bool :=
  decide (3 ≤ len ∧ len ≤ 258 ∧ p + len ≤ data.length ∧ 1 ≤ dist ∧ dist ≤ 32768 ∧ dist ≤ p) &&
    decide ((data.drop p).take len = (data.drop (p - dist)).take len)

/-- The tokens of the data from `p` to their end.  Which allowed match is taken is open (log 13). -/
def tokens (data : List Byte) : Nat → Nat → List Tok
  | 0, _ => []
  | fuel + 1, p =>
    match data[p]? with
    | none => []
    | some b =>
      if data.length < p + 3 then .lit b :: tokens data fuel (p + 1)
      else
        let (len, dist) := Config.matchAt data p
        if matchOk data p len dist then .ref len dist :: tokens data fuel (p + len)
        else .lit b :: tokens data fuel (p + 1)

/-- The tokens of block `i`. -/
def blockTokens (input : List Byte) (i : Nat) : List Tok := tokens (input.take (65536 * (i + 1))) 65536 (65536 * i)

/-- The length symbol of a match length. -/
def lenSym (len : Nat) : Nat :=
  (((List.range 29).map (257 + ·)).reverse.find? (fun s => decide ((lenCode s).2 ≤ len))).getD 257

/-- The distance symbol of a distance. -/
def distSym (d : Nat) : Nat := ((List.range 30).reverse.find? (fun s => decide ((distCode s).2 ≤ d))).getD 0

/-- The literal/length symbols of a block, its end among them. -/
def litSyms (l : List Tok) : List Nat :=
  l.map (fun t => match t with | .lit b => b.toNat | .ref n _ => lenSym n) ++ [256]

/-- The distance symbols of a block. -/
def distSyms (l : List Tok) : List Nat := l.filterMap (fun t => match t with | .lit _ => none | .ref _ d => some (distSym d))

/-- How often each of `n` symbols comes. -/
def countsOf (n : Nat) (l : List Nat) : List Nat := (List.range n).map (fun s => l.count s)

/-- Whether code lengths make a complete code of at most `limit` bits in which every symbol with a count has a code. -/
def lensOk (counts lens : List Nat) (limit : Nat) : Bool :=
  decide (lens.length = counts.length) && lens.all (fun l => decide (l ≤ limit)) &&
    (counts.zip lens).all (fun e => decide (e.1 = 0 ∨ e.2 ≠ 0)) &&
    decide ((lens.map (fun l => if l = 0 then 0 else 2 ^ (limit - l))).sum = 2 ^ limit)

/-- The code lengths for counts, with a complete code to fall back on. -/
def lensFor (counts : List Nat) (limit : Nat) (plain : List Nat) : List Nat :=
  let l := Config.codeLens counts limit
  if lensOk counts l limit then l else plain

/-- The bits of a symbol in the canonical code of some lengths, the most significant first (RFC 1951). -/
def symBits (lens : List Nat) (s : Nat) : List Bool :=
  let n := lens.getD s 0
  let first := ((List.range n).map (fun l => if l = 0 then 0 else lens.count l * 2 ^ (n - l))).sum
  let code := first + (lens.take s).count n
  (List.range n).map (fun k => code.testBit (n - 1 - k))

/-- A token's bits in a pair of codes. -/
def tokBits (lit dist : List Nat) : Tok → List Bool
  | .lit b => symBits lit b.toNat
  | .ref len d =>
    let s := lenSym len
    let t := distSym d
    symBits lit s ++ bitsOf (len - (lenCode s).2) (lenCode s).1 ++ symBits dist t ++ bitsOf (d - (distCode t).2) (distCode t).1

/-- A block's tokens and its end in a pair of codes. -/
def bodyBits (lit dist : List Nat) (l : List Tok) : List Bool := (l.map (tokBits lit dist)).flatten ++ symBits lit 256

/-- The extra bits of a code-length symbol. -/
def clExtra (s : Nat) : Nat := if s = 16 then 2 else if s = 17 then 3 else if s = 18 then 7 else 0

/-- The code lengths that code-length symbols write, after those already written. -/
def expandCl : List (Nat × Nat) → List Nat → Option (List Nat)
  | [], acc => some acc
  | (s, x) :: rest, acc =>
    if 18 < s ∨ 2 ^ clExtra s ≤ x then none
    else if s < 16 then expandCl rest (acc ++ [s])
    else if s = 16 then
      match acc.getLast? with
      | none => none
      | some l => expandCl rest (acc ++ List.replicate (3 + x) l)
    else expandCl rest (acc ++ List.replicate ((if s = 17 then 3 else 11) + x) 0)

/-- The code-length symbols that write the lengths, each plainly where the compressor's own choice does not. -/
def clSyms (lens : List Nat) : List (Nat × Nat) :=
  let t := Config.clTokens lens
  if expandCl t [] = some lens then t else lens.map (fun l => (l, 0))

/-- The header of a dynamic block: HLIT and HDIST for all symbols, as many code-length lengths as are needed (log 13). -/
def dynHeader (lit dist : List Nat) : List Bool :=
  let t := clSyms (lit ++ dist)
  let cl := lensFor (countsOf 19 (t.map (·.1))) 7 (List.replicate 13 4 ++ List.replicate 6 5)
  let sent := clOrder.map (fun s => cl.getD s 0)
  let n := max 4 (19 - (sent.reverse.takeWhile (· = 0)).length)
  bitsOf 29 5 ++ bitsOf 29 5 ++ bitsOf (n - 4) 4 ++ ((sent.take n).map (fun l => bitsOf l 3)).flatten ++
    (t.map (fun e => symBits cl e.1 ++ bitsOf e.2 (clExtra e.1))).flatten

/-- The coded form of block `i` (R500): block 0 in the fixed code, a later one in the code that the counts of the block before
it give, with 1 added to each. -/
def codedBlock (input : List Byte) (i : Nat) (last : Bool) : List Bool :=
  let body := blockTokens input i
  if i = 0 then [last, true, false] ++ bodyBits fixedLit (List.replicate 30 5) body
  else
    let prev := blockTokens input (i - 1)
    let more (n : Nat) (l : List Nat) : List Nat := (countsOf n l).map (· + 1)
    let lit := lensFor (more 286 (litSyms prev)) 15 (List.replicate 226 8 ++ List.replicate 60 9)
    let dist := lensFor (more 30 (distSyms prev)) 15 (List.replicate 2 4 ++ List.replicate 28 5)
    [last, false, true] ++ dynHeader lit dist ++ bodyBits lit dist body

/-- Block `i` of an input of `n` bytes at a bit position: its bits, and whether it is stored (R500, R501).  It depends on no
input after its own. -/
def blockBits (n : Nat) (input : List Byte) (pos i : Nat) : List Bool × Bool :=
  let last := decide (i + 1 = blockCount n)
  let c := codedBlock input i last
  let r := storedForm pos last (blockData input i)
  if r.length ≤ c.length then (r, true) else (c, false)

/-- The stream up to block `i`, the framing header's bits first: its bits, and the blocks stored. -/
def streamTo (framing n : Nat) (input : List Byte) : Nat → List Bool × Nat
  | 0 => (byteBits (frameBytes framing), 0)
  | i + 1 =>
    let (b, k) := streamTo framing n input i
    let (x, r) := blockBits n input b.length i
    (b ++ x, k + b2n r)

/-- Bits packed into bytes, the last padded with 0. -/
def packBits : Nat → List Bool → List Byte
  | 0, _ => []
  | n + 1, l =>
    if l.isEmpty then [] else
      BitVec.ofNat 8 (((l.take 8).zipIdx.map (fun e => b2n e.1 * 2 ^ e.2)).sum) :: packBits n (l.drop 8)

end Sys2Proof.Machine
end

