-- ==== Sys2Proof/Machine/Engines.lean ====
section
/-! DEFINITION. The compression and cipher engines (R496 to R530): their steps, contexts, results and ownership. -/

namespace Sys2Proof.Machine

/-! ## Engines in service -/

/-- Whether a unit (a compression engine, or 16 + a cipher engine) runs a step. -/
def State.unitBusy (s : State) (u : Nat) : Bool :=
  s.vol.steps.any (fun e => match e.2 with | some x => decide (x.unit = some u) | none => false)

/-- Contexts a compression engine holds (R497). -/
def State.cmpContexts (s : State) (e : Nat) : Nat := (s.vol.ctxs.filter (fun x => decide (x.2.1 = e))).length

/-- Sets an operation's context. -/
def State.setCtx (s : State) (i : Nat) (c : Nat × Nat × Nat) : State :=
  { s with vol := { s.vol with ctxs := s.vol.ctxs.insert i c } }

/-- The compression engine of an operation's step (R497): the one that holds its context, or the one it takes. -/
def State.cmpEngine (s : State) (i pool : Nat) : Option Nat :=
  let run (e : Nat) : Bool := decide (s.regF (offCmp e) 1 0 = 0)
  match s.ctx? i with
  | some (e, _, _) => if run e then some e else none
  | none =>
    let ok (e : Nat) : Bool := run e && decide (s.cmpContexts e < 16)
    if ok (pool % 8) then some (pool % 8) else (List.range 8).find? ok

/-- The cipher engine of a step (R518). -/
def State.cipEngine (s : State) (pool n : Nat) : Option Nat :=
  let ok (e : Nat) : Bool := decide (s.regF (offCip e + 0x10) 1 0 = 0 ∧ s.regF (offCip e) 15 0 ≠ 0x400) && !s.unitBusy (16 + e)
  let l := (s.cipFor n).filter ok
  match l.find? (fun e => decide (e / 4 = pool % 4) || decide (s.regF (offCip e) 15 0 = n + 1)) with
  | some e => some e
  | none => l.head?

/-- CMP_STAT_k (R525). -/
def State.cmpStat (s : State) (e k n : Nat) : State := s.addStat (offCmp e + 0x10) k n

/-- CIP_STAT_k (R530). -/
def State.cipStat (s : State) (e k n : Nat) : State := s.addStat (offCip e + 0x20) k n

/-- A CIP_EVENT bit, reported (R530). -/
def State.cipEvent (s : State) (e b : Nat) : State := (s.setRegF (offCip e + 0x18) b b 1).report (0x200 + e)

/-- A CMP_EVENT bit, reported (R525). -/
def State.cmpEvent (s : State) (e b : Nat) : State := (s.setRegF (offCmp e + 8) b b 1).report (0x1F8 + e)

/-! ## Compression -/

/-- Writes bytes of an operation's output from offset `pos`: ADDR2, then ADDR3 (R504). -/
def writeOut (n : Nat) (d : List Byte) (pos : Nat) (out : List Byte) : ChM Unit := do
  let l ← chPiecesAll n true (sliceRanges (outRanges d) pos out.length)
  chWritePieces l out

/-- Output space: OUT_CAP and the overflow buffer (R499). -/
def outSpace (d : List Byte) : Nat := rangesLen (outRanges d)

/-- Whether a stream up to the end of some block decodes to the input coded (R506). -/
def verifies (framing : Nat) (bitsOut : List Bool) (input : List Byte) : Bool :=
  let b := packBits (bitsOut.length / 8 + 1) bitsOut
  let z := inflate b.toArray bitsOut.length (input.length + 1) (bitsOut.length + 1)
    ⟨8 * (frameBytes framing).length, #[], (0, 0), false⟩
  decide (z.2.out.toList = input)

/-- TSTATE of a compression type (R507). -/
def tstate (framing : Nat) (data : List Byte) (pbits pending phase : Nat) : Word :=
  let c := if framing = 0 then 0 else if framing = 1 then adler32 data else (crc32 data).toNat
  field 31 0 c ||| field 34 32 pbits ||| field 41 35 pending ||| field 43 42 phase

/-- A COMPRESS step (R500 to R507): one to four whole blocks from the journal point. -/
def compressStep (i e eng : Nat) (o : Op) (j : Jent) : ChM Unit := do
  let d := o.desc
  let n := dLen d
  let framing := bits (dw d 5) 33 32
  let b0 := j.done / 65536
  let b1 := min (blockCount n) (b0 + 4)
  let hi := min n (65536 * b1)
  let r ← ranges1 j.vcf d
  let src ← chPiecesAll j.vcf false (sliceRanges r 0 hi)
  let input ← chReadPieces 0 src
  let last := decide (b1 = blockCount n)
  let st (k : Nat) : List Bool × Nat := streamTo framing n input k
  let bytesAt (k : Nat) : Nat := if k = blockCount n then ((st k).1.length + 7) / 8 else (st k).1.length / 8
  let space := min (outSpace d) 0xFFFFFFFF
  let blocks := (List.range (b1 - b0)).map (fun k => b0 + k)
  match blocks.find? (fun k => decide (space < bytesAt (k + 1))) with
  | some k => chFail 0x13 (65536 * k)
  | none =>
    let (sb, raw) := st b1
    let body := packBits (sb.length / 8 + 1) sb
    let out := if last then body ++ trailer framing input else body.take (sb.length / 8)
    if space < out.length then
      let s ← get
      set s.tick1
      chFail 0x13 (Config.freeNat s.free % 2 ^ 32)
    if bit (dw d 5) 34 then
      match blocks.find? (fun k => !verifies framing (st (k + 1)).1 (input.take (65536 * (k + 1)))) with
      | some k => chFail 0x15 (65536 * k)
      | none => pure ()
    let cap := bits (dw d 5) 31 0
    writeOut j.vcf d j.out (out.drop j.out)
    modify (fun s =>
      let len := hi - j.done
      let new := out.length - j.out
      let s := (((s.vcfStat j.vcf 3 len).vcfStat j.vcf 4 new).cmpStat e 0 len).cmpStat e 1 new
      let s := (s.cmpStat e 2 1).cmpStat e 3 (raw - (st b0).2)
      let s := if last then s.setOp i { o with raw := decide (0 < raw) } else s
      let pend := (sb.drop (sb.length / 8 * 8)).zipIdx.map (fun x => b2n x.1 * 2 ^ x.2)
      (s.setCtx i (e, hi, out.length)).startStep i
        ⟨eng, j.done, len, [], none, true, true, none,
         if last then some (0, out.length, out.length - min out.length cap) else none, out.length,
         tstate framing input (sb.length % 8) pend.sum (if last then 2 else 1), some e⟩)

/-- COMPRESS (R500, R507): one step; without an engine, a context or with its engine busy it waits. -/
def execCompress (op : BitVec 22) (s : State) : Out :=
  .next (s.typeRow op.toNat (fun t => decide (t = 5)) (fun s o =>
    let i := op.toNat
    match s.engineFor o.pool, s.cmpEngine i o.pool with
    | some eng, some e => if s.unitBusy e then s else s.runCh i (compressStep i e eng o (s.jent i))
    | _, _ => s))

/-- How a decompression goes on from its input: where it stands, and its result (status, DETAIL) if the operation ends. -/
structure Dec where
  out : List Byte
  reached : Nat
  head : Nat × Nat
  phase : Nat
  result : Option (Nat × Nat)

/-- Decodes the first bytes of an input of `n` bytes, to an output limit (R505, R507).  An error is found at the byte where the
element in error begins, or at the end of an input that ends too soon (DEDUCED, log 20). -/
def decodeTo (framing n : Nat) (l : List Byte) (space cut : Nat) : Dec :=
  let short : Option (Nat × Nat) := if l.length = n then some (0x14, n) else none
  match frameHeader framing l with
  | .bad => ⟨[], 0, (0, 0), 0, some (0x14, 0)⟩
  | .more => ⟨[], l.length, (0, 0), 0, short⟩
  | .ok _ h =>
    let cap := min (space + 1) cut
    let (e, z) := inflate l.toArray (8 * l.length) cap (8 * l.length + 1) ⟨8 * h, #[], (8 * h, 0), false⟩
    let out := z.out.toList
    let at' := z.pos / 8
    match e with
    | .bad => ⟨out, at', z.head, 1, some (0x14, at')⟩
    | .more => ⟨out, l.length, z.head, 1, short⟩
    | .full => ⟨out, at', z.head, 1, if space < out.length then some (0x13, at') else none⟩
    | .block =>
      let p := (z.pos + 7) / 8
      let t := trailerLen framing
      if space < out.length then ⟨out, p, z.head, 1, some (0x13, p)⟩
      else if l.length < p + t then ⟨out, l.length, (8 * p, out.length), 2, short⟩
      else if (l.drop p).take t ≠ trailer framing out then ⟨out, p, (8 * p, out.length), 2, some (0x14, p)⟩
      else ⟨out, p + t, (8 * p, out.length), 2, some (0, p + t)⟩

/-- A DECOMPRESS step (R505, R507, R508): from its context, or without one from the journal's restart point. -/
def decompressStep (i e eng : Nat) (o : Op) (j : Jent) : ChM Unit := do
  let s ← get
  let d := o.desc
  let n := dLen d
  let framing := bits (dw d 5) 33 32
  let (at0, out0) := match s.ctx? i with
    | some (_, a, b) => (a, b)
    | none => (j.done, j.out)
  let lim := min n (at0 + stepMax)
  let r ← ranges1 j.vcf d
  let src ← chPiecesAll j.vcf false (sliceRanges r 0 lim)
  let input ← chReadPieces 0 src
  let z := decodeTo framing n input (outSpace d) (out0 + 1048576)
  match z.result with
  | some (0x13, det) => chFail 0x13 det
  | some (0x14, det) => chFail 0x14 det
  | _ =>
    writeOut j.vcf d out0 (z.out.drop out0)
    modify (fun s =>
      let len := z.reached - at0
      let new := z.out.length - out0
      let s := (((s.vcfStat j.vcf 3 len).vcfStat j.vcf 4 new).cmpStat e 0 len).cmpStat e 1 new
      let s := s.cmpStat e 2 1
      (s.setCtx i (e, z.reached, z.out.length)).startStep i
        ⟨eng, j.done, z.head.1 / 8 - j.done, [], none, true, true, none,
         z.result.map (fun x => (0, z.out.length, x.2)), z.head.2,
         tstate framing (z.out.take z.head.2) (z.head.1 % 8) 0 z.phase, some e⟩)

/-- DECOMPRESS (R505, R507): one step. -/
def execDecompress (op : BitVec 22) (s : State) : Out :=
  .next (s.typeRow op.toNat (fun t => decide (t = 6)) (fun s o =>
    let i := op.toNat
    match s.engineFor o.pool, s.cmpEngine i o.pool with
    | some eng, some e => if s.unitBusy e then s else s.runCh i (decompressStep i e eng o (s.jent i))
    | _, _ => s))

/-! ## Cipher -/

/-- KEY_SIZE in bytes. -/
def keyBytes (r : List Byte) : Nat := 16 + 8 * bits (dw r 0) 1 0

/-- NONCE_LEN. -/
def nonceLen (r : List Byte) : Nat := bits (dw r 0) 7 4

/-- TAG_LEN. -/
def tagLen (r : List Byte) : Nat := bits (dw r 0) 12 8

/-- The offset of the first field of a key record outside its mode's values (R510, R512). -/
def recordError (mode : Nat) (r : List Byte) : Option Nat :=
  let w := dw r 0
  let ccm := decide (mode = 5)
  let nonceOk := if mode = 5 then decide (7 ≤ nonceLen r ∧ nonceLen r ≤ 13) else decide (nonceLen r = 0)
  let tagOk := if mode = 5 then [4, 6, 8, 10, 12, 14, 16].contains (tagLen r)
    else if mode = 4 then decide (1 ≤ tagLen r ∧ tagLen r ≤ 16) else decide (tagLen r = 0)
  if bits w 1 0 = 3 ∨ bits w 3 2 ≠ 0 ∨ bits w 63 13 ≠ 0 ∨ ¬ nonceOk ∨ ¬ tagOk then some 0
  else if ¬ ccm ∧ dw r 1 ≠ 0 then some 8
  else if bits (dw r 2) 63 32 ≠ 0 ∨ (¬ ccm ∧ bits (dw r 2) 31 0 ≠ 0) then some 0x10
  else if dw r 3 ≠ 0 then some 0x18
  else if ccm ∧ ((r.drop (0x20 + nonceLen r)).take (16 - nonceLen r)).any (· ≠ 0) then some 0x20
  else if ((r.drop (0x40 + keyBytes r + 8)).take (32 - keyBytes r)).any (· ≠ 0) then some 0x40
  else if ((r.drop 0x68).take 24).any (· ≠ 0) then some 0x68
  else none

/-- Whether a mode writes a MAC over all of its input (R511, R515). -/
def macMode (mode : Nat) : Bool := decide (mode = 4 ∨ mode = 5)

/-- The output a CIPHER requires (R511). -/
def cipherNeeds (mode : Nat) (dec : Bool) (n tag : Nat) : Nat :=
  if mode = 4 then (if dec then 0 else tag) else if mode = 5 ∧ ¬ dec then n + tag else n

/-- The blocks a counter still has, where the operation would pass them (R513). -/
def counterShort (d r : List Byte) : Option Nat :=
  let mode := bits (dw d 5) 2 0
  let blocks := (dLen d + 15) / 16
  if mode = 1 then
    let w := [4, 8, 12, 16].getD (bits (dw d 5) 5 4) 4
    let left := 256 ^ w - beNat (((r.drop 0x20).take 16).drop (16 - w))
    if left < blocks then some (min left 0xFFFFFFFF) else none
  else if mode = 5 then
    let left := 256 ^ (15 - nonceLen r) - 1
    if left < blocks then some (min left 0xFFFFFFFF) else none
  else none

/-- The key-encryption key: from the device secret and the owner anchor (R535). -/
def State.kek (s : State) : List Byte := padTo 32 (Config.derive 2 (leNat s.nv.otp.owner) 0)

/-- The checks of R512: the key record and the key.  An unwrapped key always has the length KEY_SIZE says, since KEY_SIZE says
how much is unwrapped. -/
def cipherChecks (e : Nat) (o : Op) (j : Jent) (loaded : Bool) : ChM (List Byte × List Byte) := do
  let d := o.desc
  let mode := bits (dw d 5) 2 0
  let dec := bit (dw d 5) 3
  let r ← chRead j.vcf 0 (dw d 6) 128
  match recordError mode r with
  | some off => chFail 0x02 off
  | none => pure ()
  let aadLen := bits (dw r 2) 31 0
  if mode = 5 ∧ 0 < aadLen then
    let za ← zoneRanges j.vcf false [(dw r 1, aadLen)]
    let zo ← zoneRanges j.vcf true (outRanges d)
    if zo.any (fun x => za.any (fun y => zOverlap x y)) then chFail 0x08 0
  let need := cipherNeeds mode dec (dLen d) (tagLen r)
  if bits (dw d 5) 63 32 < need then chFail 0x13 need
  match counterShort d r with
  | some left => do
    modify (fun s => s.cipStat e 3 1)
    chFail 0x16 left
  | none => pure ()
  let s ← get
  if ¬ loaded then modify (fun s => s.cipStat e 2 1)
  match keyUnwrap s.kek ((r.drop 0x40).take (keyBytes r + 8)) with
  | none => do
    modify (fun s => s.cipEvent e 3)
    chFail 0x18 0
  | some key => pure (r, key)

/-- What a step of a mode without a MAC writes (R511, R515): the part of the input from `off`, with the 16 bytes of input and of
output before it. -/
def cipherBytes (d r key : List Byte) (off : Nat) (prevIn prevOut part : List Byte) : List Byte :=
  let mode := bits (dw d 5) 2 0
  let dec := bit (dw d 5) 3
  let iv := (r.drop 0x20).take 16
  let bs := chunks 16 (part.length / 16 + 1) part
  let chain := if off = 0 then iv else if dec then prevIn else prevOut
  if mode = 0 then (if dec then cbcDec key chain bs else cbcEnc key chain bs)
  else if mode = 1 then ctrMode key iv ([4, 8, 12, 16].getD (bits (dw d 5) 5 4) 4) (off / 16) bs
  else if mode = 2 then cfbMode key dec chain bs
  else ofbMode key (if off = 0 then iv else xorBytes prevIn prevOut) bs

/-- A cipher engine lets go of its key (R520); `chain` also of the state the channel keeps for the operation. -/
def State.cipClear (s : State) (e : Nat) (chain : Bool) : State :=
  let l : List (Nat × Nat × Nat × Nat) := s.vol.ctxs
  let l := if chain then l.filter (fun c => decide (c.2.1 ≠ 16 + e))
    else l.map (fun c => if c.2.1 = 16 + e then (c.1, 99, c.2.2) else c)
  { s with vol := { s.vol with ctxs := l } }

/-- A CIPHER step (R511 to R515). -/
def cipherStep (i e eng : Nat) (o : Op) (j : Jent) : ChM Unit := do
  let s ← get
  let d := o.desc
  let n := dLen d
  let mode := bits (dw d 5) 2 0
  let dec := bit (dw d 5) 3
  let loaded := match s.ctx? i with
    | some (u, _, _) => decide (u = 16 + e)
    | none => false
  let (r, key) ← cipherChecks e o j loaded
  let mac := macMode mode
  let off := if mac then (match s.ctx? i with | some (_, a, _) => a | none => 0) else j.done
  let k := min stepMax (n - off)
  let last := decide (off + k = n)
  let rs ← ranges1 j.vcf d
  let src ← chPiecesAll j.vcf false (sliceRanges rs (if mac then 0 else off) (if mac then off + k else k))
  let got ← chReadPieces (if mac then 0 else off) src
  let part := if mac then got.drop off else got
  let out ← (if mode = 4 then
      pure (if last ∧ ¬ dec then (cmac key got).take (tagLen r) else [])
    else if mode = 5 then do
      let nonce := (r.drop 0x20).take (nonceLen r)
      let body := ctrMode key (ccmCtr nonce) (15 - nonceLen r) (1 + off / 16) (chunks 16 (part.length / 16 + 1) part)
      if last ∧ ¬ dec then
        let aad ← (if bits (dw r 2) 31 0 = 0 then pure [] else chRead j.vcf 0 (dw r 1) (bits (dw r 2) 31 0))
        pure (body ++ ccmTag key nonce aad got (tagLen r))
      else pure body
    else do
      let need := 0 < off ∧ mode ≠ 1
      let prevIn ← (if need ∧ (dec ∨ mode = 3) then do
          let p ← chPiecesAll j.vcf false (sliceRanges rs (off - 16) 16)
          chReadPieces (off - 16) p
        else pure [])
      let prevOut ← (if need ∧ (¬ dec ∨ mode = 3) then do
          let p ← chPiecesAll j.vcf true (sliceRanges (outRanges d) (off - 16) 16)
          chReadPieces (off - 16) p
        else pure [])
      pure (cipherBytes d r key off prevIn prevOut part))
  let good ← (if last ∧ dec ∧ mode = 4 then pure (decide ((cmac key got).take (tagLen r) = (r.drop 0x30).take (tagLen r)))
    else if last ∧ dec ∧ mode = 5 then do
      let nonce := (r.drop 0x20).take (nonceLen r)
      let aad ← (if bits (dw r 2) 31 0 = 0 then pure [] else chRead j.vcf 0 (dw r 1) (bits (dw r 2) 31 0))
      pure (decide (ccmTag key nonce aad (ccmCrypt key nonce got) (tagLen r) = (r.drop 0x30).take (tagLen r)))
    else pure true)
  writeOut j.vcf d (if mode = 4 then 0 else off) out
  modify (fun s =>
    let s := (((s.vcfStat j.vcf 3 k).vcfStat j.vcf 4 out.length).cipStat e 0 k).cipStat e 1 1
    let s := if good then s else s.cipEvent e 4
    let s := if s.regF (offCip e) 15 0 = 0 then s.setRegF (offCip e) 15 0 0x400 else s
    let s := s.cipClear e false
    let total := cipherNeeds mode dec n (tagLen r)
    (s.setCtx i (16 + e, off + k, 0)).startStep i
      ⟨eng, off, if mac then 0 else k, [], none, true, true, none,
       if ¬ good then some (0x17, 0, 0) else if last then some (0, total, 0) else none, if mac then 0 else off + k, 0,
       some (16 + e)⟩)

/-- CIPHER (R511, R518): one step. -/
def execCipher (op : BitVec 22) (s : State) : Out :=
  .next (s.typeRow op.toNat (fun t => decide (t = 7)) (fun s o =>
    let i := op.toNat
    let j := s.jent i
    match s.engineFor o.pool, s.cipEngine o.pool j.vcf with
    | some eng, some e => s.runCh i (cipherStep i e eng o j)
    | _, _ => s))

/-! ## Ends of steps and ownership -/

/-- An engine whose step has ended (R517, R518, R520): claimed by the channel or releasing, it becomes FREE. -/
def State.cipEnd (s : State) (e : Nat) : State :=
  if s.unitBusy (16 + e) then s
  else if s.regF (offCip e) 15 0 = 0x400 ∨ bit (s.reg (offCip e + 0x10)) 4 then
    (((s.setRegF (offCip e) 15 0 0).setRegF (offCip e + 0x10) 4 4 0).cipClear e false)
  else s

/-- Engines whose steps have ended. -/
def State.cipSettle (s : State) : State := (List.range 16).foldl State.cipEnd s

/-- An operation that has ended keeps no key on a dedicated engine (R520). -/
def State.dropKey (s : State) (i : Nat) : State :=
  match s.op? i, s.ctx? i with
  | some o, some (u, _, _) =>
    if o.fin.isSome ∧ 16 ≤ u then { s with vol := { s.vol with ctxs := s.vol.ctxs.erase i } } else s
  | _, _ => s

/-- STEP_COMPLETE (R433, R439, R507). -/
def execStepComplete (op : BitVec 22) (s : State) : Out :=
  .next (if s.pwr.phase = .running then ((s.stepComplete op.toNat).dropKey op.toNat).cipSettle else s)

/-- A software write of CIP_LOCK (R516, R517). -/
def State.cipLockWrite (s : State) (e v : Nat) : State :=
  let own := s.regF (offCip e) 15 0
  let claim (s : State) (c : Nat) : State := s.setRegF (offCip e + 0x10) 6 5 c
  if v = 0 then
    if own = 0x400 then s
    else if s.unitBusy (16 + e) then claim (s.setRegF (offCip e + 0x10) 4 4 1) 0
    else claim ((s.setRegF (offCip e) 15 0 0).cipClear e true) 0
  else if v ≤ 0x3FF ∨ v = 0xFFFF then
    if own = 0 then claim (s.setRegF (offCip e) 15 0 v) 1 else claim s 2
  else s

/-- CIP_CLAIM (R517). -/
def execCipClaim (src : Src) (engine : Fin 16) (v : BitVec 16) (s : State) : Out :=
  .next (if s.srcMay src 1 then s.cipLockWrite engine.val v.toNat else s)

/-- CIP_RELEASE (R517). -/
def execCipRelease (src : Src) (engine : Fin 16) (s : State) : Out :=
  .next (if s.srcMay src 1 then s.cipLockWrite engine.val 0 else s)

/-- A cipher engine's step is abandoned. -/
def State.cipAbandon (s : State) (e : Nat) : State := s.abandonSteps (fun _ x => decide (x.unit = some (16 + e)))

/-- FORCE (R519). -/
def State.cipForce (s : State) (e : Nat) : State :=
  if s.regF (offCip e) 15 0 = 0 then s
  else
    let s := (s.cipAbandon e).cipClear e true
    ((s.setRegF (offCip e) 15 0 0).setRegF (offCip e + 0x10) 4 4 0).cipEvent e 2

/-- FORCE (R519). -/
def execForce (src : Src) (engine : Fin 16) (s : State) : Out :=
  .next (if s.srcKeel src then s.cipForce engine.val else s)

/-- A compression engine is fenced (R498): its contexts are emptied, its step runs again elsewhere. -/
def State.cmpFence (s : State) (e : Nat) : State :=
  let s := s.abandonSteps (fun _ x => decide (x.unit = some e))
  let s := { s with vol := { s.vol with ctxs := s.vol.ctxs.filter (fun c => decide (c.2.1 ≠ e)) } }
  (s.setRegF (offCmp e) 1 0 1).setRegF (offCmp e + 8) 0 0 1

/-- A cipher engine is fenced (R498). -/
def State.cipFence (s : State) (e : Nat) : State :=
  let s := ((s.cipAbandon e).cipClear e true).cipSettle
  (s.setRegF (offCip e + 0x10) 1 0 1).setRegF (offCip e + 0x18) 0 0 1

/-- The engines at a landing (R366, R497, R520, R527): steps and contexts go, keys are cleared, CHANNEL becomes FREE. -/
def State.enginesLand (s : State) : State :=
  let s := s.abandonSteps (fun _ _ => true)
  { s with vol := { s.vol with fetched := [], ctxs := [] } }.cipSettle

/-- CMP_STATE (R524). -/
def State.cmpState (s : State) (e : Nat) : Word :=
  field 1 0 (s.regF (offCmp e) 1 0) ||| field 2 2 (b2n (s.unitBusy e)) ||| field 12 8 (s.cmpContexts e)

/-- CIP_STATUS (R529). -/
def State.cipStatus (s : State) (e : Nat) : Word :=
  (s.reg (offCip e + 0x10) &&& (msk 1 0 ||| msk 6 4)) ||| field 2 2 (b2n (s.unitBusy (16 + e))) |||
    field 3 3 (b2n (s.vol.ctxs.any (fun c => decide (c.2.1 = 16 + e))))

end Sys2Proof.Machine
end

