-- ==== Sys2Proof/Machine/Florix.lean ====
section
/-! DEFINITION. Florix links and mirroring (R459 to R495): crossings, their frames, requests both ways, READ, WRITE and
MIRROR-WRITE, and the Florix commands. -/

namespace Sys2Proof.Machine

/-! ## Links and crossings -/

/-- FLX_LINK_k_STATUS of link `l` (R491). -/
def offFl (l : Nat) : Nat := offFlx (l / 4) + 0x100 + 0x40 * (l % 4)

/-- STATE of a link (R491). -/
def State.flxSt (s : State) (l : Nat) : Nat := s.regF (offFl l) 2 0

/-- A crossing. -/
def State.xing (s : State) (n : Nat) : Xing := s.live.xs.get n Xing.none

/-- Replaces a crossing. -/
def State.setXing (s : State) (n : Nat) (x : Xing) : State :=
  { s with live := { s.live with xs := s.live.xs.put n x Xing.none } }

/-- A doubleword of a crossing's entry (R465). -/
def Xing.e (x : Xing) (i : Nat) : Word := x.entry.getD i 0

/-- VALID. -/
def Xing.valid (x : Xing) : Bool := bit (x.e 0) 0
/-- PROTECT. -/
def Xing.protect (x : Xing) : Bool := bit (x.e 0) 1
/-- ENCAP. -/
def Xing.encap (x : Xing) : Nat := bits (x.e 0) 3 2
/-- INITIATE. -/
def Xing.initiate (x : Xing) : Bool := bit (x.e 0) 5
/-- PEER_XID. -/
def Xing.peerXid (x : Xing) : Nat := bits (x.e 0) 35 24
/-- TRIES. -/
def Xing.triesMax (x : Xing) : Nat := bits (x.e 5) 14 10

/-- The links an entry lists, in preference order (R465). -/
def entryLinks (e0 : Word) : List Nat := (List.range (bits e0 58 56)).map (fun i => bits e0 (43 + 4 * i) (40 + 4 * i))

/-- The links a crossing may use: below version 3.1 the first alone (R473). -/
def Xing.links (x : Xing) : List Nat :=
  let l := entryLinks (x.e 0)
  if x.version ≠ 0 ∧ x.version < 0x31 then l.take 1 else l

/-- The number of the current link. -/
def Xing.linkNo (x : Xing) : Nat := x.links.getD x.link 0

/-- The index of the first link that is up (R475). -/
def State.firstUp (s : State) (x : Xing) : Option Nat := (List.range x.links.length).find? (fun k => decide (s.flxSt (x.links.getD k 0) = 3))

/-- FLX_IDENT (R492). -/
def State.flxIdent (s : State) : Word := s.reg (offFlx 0 + 0x1000)

/-- A crossing statistic (R493). -/
def State.xStat (s : State) (n k v : Nat) : State := s.addStat (2 ^ 32 + 64 * n) k v

/-- A FLX_EVENT bit, reported (R494). -/
def State.flxEvent (s : State) (b : Nat) : State := (s.setRegF (offFlx 0 + 0x1080) b b 1).report 0x211

/-- A crossing's epoch count (R471). -/
def State.epochCount (s : State) (n : Nat) : Nat := s.nv.cfg.flxEpochs.get n 0

/-! ## Sending -/

/-- A frame of `len` payload bytes leaves on the current link; the Florix frame's bytes are counted. -/
def State.flxTx (s : State) (n len : Nat) : State :=
  let x := s.xing n
  let s := (s.xStat n 0 1).xStat n 2 (32 + len + (if x.protect then 16 else 0))
  s.countFlx (x.linkNo / 4) 0x02 1

/-- Whether the current link is up. -/
def State.xUp (s : State) (n : Nat) : Bool := decide (s.flxSt (s.xing n).linkNo = 3) && !(s.xing n).links.isEmpty

/-- An unsequenced frame is sent (R463, R480). -/
def State.flxUnseq (s : State) (n len : Nat) : State :=
  if ¬ s.xUp n then s
  else (s.setXing n { s.xing n with unseq := (s.xing n).unseq + 1 }).flxTx n len

/-- Sequenced frames leave while at most 1,024 are unacknowledged (R474). -/
def State.flxPump (s : State) (n : Nat) : State :=
  let x := s.xing n
  if x.st ≠ 2 ∨ s.pwr.phase ≠ .running ∨ ¬ s.xUp n then s
  else
    let sent := (x.unacked.filter (fun f => decide (0 < f.tries))).length
    let new := (x.unacked.filter (fun f => decide (f.tries = 0))).take (1024 - sent)
    let s := s.setXing n { x with unacked := x.unacked.map (fun f =>
      if new.any (fun g => decide (g.seq = f.seq)) then { f with tries := 1 } else f) }
    new.foldl (fun s f => s.flxTx n f.payload.length) s

/-- A sequenced frame takes the next SEQ (R471, R474). -/
def State.flxPut (s : State) (n type : Nat) (payload : List Byte) : State :=
  let x := s.xing n
  s.setXing n { x with seq := x.seq + 1, unacked := x.unacked ++ [⟨x.seq + 1, type, payload, 0, none⟩] }

/-- The current link sends every unacknowledged frame again (R475). -/
def State.flxResendAll (s : State) (n : Nat) (first : Nat) (restart : Bool) : State :=
  let x := s.xing n
  let hit (f : FlxFrame) : Bool := decide (0 < f.tries ∧ first ≤ f.seq)
  let l := x.unacked.filter hit
  let s := s.setXing n { x with unacked := x.unacked.map (fun f =>
    if hit f then { f with tries := if restart then 1 else f.tries + 1 } else f) }
  l.foldl (fun s f => ((s.xStat n 4 1).countFlx ((s.xing n).linkNo / 4) 0x04 1).flxTx n f.payload.length) s

/-- The crossing fails over to the next link that is up (R475). -/
def State.flxFailover (s : State) (n : Nat) : State :=
  let x := s.xing n
  let k := x.links.length
  match ((List.range k).map (fun i => (x.link + 1 + i) % k)).find? (fun i => decide (s.flxSt (x.links.getD i 0) = 3)) with
  | none => s
  | some i =>
    let s := if i = x.link then s else ((s.setXing n { x with link := i }).xStat n 5 1).flxEvent 3
    (s.flxResendAll n 0 true).flxPump n

/-- One frame is sent again, or with its transmissions spent the crossing fails over; below version 3.0 every frame from the
first unacknowledged one is sent again (R473, R475). -/
def State.flxRetry (s : State) (n seq : Nat) : State :=
  let x := s.xing n
  match x.unacked.find? (fun f => decide (f.seq = seq ∧ 0 < f.tries)) with
  | none => s
  | some f =>
    if x.st ≠ 2 ∨ s.pwr.phase ≠ .running then s
    else if x.triesMax ≤ f.tries ∨ ¬ s.xUp n then s.flxFailover n
    else if x.version < 0x30 then s.flxResendAll n 0 false
    else
      let s := s.setXing n { x with unacked := x.unacked.map (fun g => if g.seq = seq then { g with tries := g.tries + 1 } else g) }
      ((s.xStat n 4 1).countFlx (x.linkNo / 4) 0x04 1).flxTx n f.payload.length

/-- HELLO is sent on the first link that is up, proposing the count + 1 (R470, R471); a spent count refuses it. -/
def State.sendHello (s : State) (n : Nat) : State :=
  let x := s.xing n
  let p := s.epochCount n + 1
  if 0xFFFFFFFE < p then (s.setXing n { x with st := 5, reason := 5 }).flxEvent 6
  else
    let s := s.setXing n { x with proposed := p, link := (s.firstUp x).getD x.link }
    s.flxUnseq n 32

/-! ## Operations and their remote parts -/

/-- The remote target of an operation (R441, R481, R483): crossing, window, key, window offset of its first byte. -/
def opRemote (o : Op) : Option (Nat × Nat × Word × Nat) :=
  let tgt (t : Word × Word × Word) (base : Word) : Nat × Nat × Word × Nat := (bits t.2.1 11 0, bits t.2.1 23 16, t.2.2, base.toNat)
  if dType o.desc = 3 then o.mirror.map (fun t => tgt t (dw o.desc 6))
  else if dType o.desc = 1 ∨ dType o.desc = 2 then
    match o.target with
    | some t => if tKind t = 2 then some (tgt t (dw o.desc 4)) else none
    | none => none
  else none

/-- Changes a step's remote side; a fixed result may end the operation. -/
def State.remoteEnd (s : State) (i : Nat) (x : Step) (fin : Option (Nat × Nat × Nat)) : State :=
  (s.setStep i (some { x with remoteDone := true, fin := match x.fin with | some f => some f | none => fin })).settle i

/-- The crossing of a step is lost (R484), or closed or refused: READ and WRITE end with PEER_LOST, a MIRROR-WRITE goes on
without its partner. -/
def State.remoteLost (s : State) (i : Nat) : State :=
  match s.step? i, s.op? i with
  | some x, some o =>
    if dType o.desc = 3 then (s.setOp i { o with degraded := true }).remoteEnd i x none
    else s.remoteEnd i x (some (0x10, (s.jent i).done, 0))
  | _, _ => s

/-- The request header of R464. -/
def reqHeader (rqn w : Nat) (key : Word) (woff len roff : Nat) : List Byte :=
  wordBytes (field 47 0 rqn ||| field 55 48 w) ++ wordBytes key ++ wordBytes (field 47 0 woff) ++
    wordBytes (field 31 0 len ||| field 63 32 roff)

/-- Bytes of data in a fragment (R464, R473). -/
def fragMax (version : Nat) : Nat := if 0x41 ≤ version then 8192 else 4096

/-- Data fragments of a request are queued. -/
def State.putFrags (s : State) (n type rqn w : Nat) (key : Word) (woff : Nat) (data : List Byte) : State :=
  let f := fragMax (s.xing n).version
  ((List.range ((data.length + f - 1) / f)).foldl (fun s k =>
    s.flxPut n type (reqHeader rqn w key woff data.length (f * k) ++ (data.drop (f * k)).take f)) s)

/-- Whether two ranges overlap. -/
def rangesMeet (a n b m : Nat) : Bool := decide (a < b + m ∧ b < a + n)

/-- A Florix step becomes a request of its crossing, when it may (R476, R485): its RQN is journaled first; a step that runs again
keeps its RQN. -/
def State.flxStart (s : State) (i : Nat) : State :=
  match s.step? i, s.op? i with
  | some x, some o =>
    match opRemote o with
    | none => s
    | some (n, w, key, base) =>
      let c := s.xing n
      let j := s.jent i
      let woff := base + x.off
      let meets := c.outs.any (fun e => match e.2 with
        | some q => decide (q.window = w ∧ q.op ≠ i) && rangesMeet q.woff q.len woff x.len
        | none => false)
      if x.remoteDone ∨ x.rqn.isSome then s
      else if c.st = 0 ∨ 4 ≤ c.st then s.remoteLost i
      else if c.st ≠ 2 ∨ c.closing ≠ 0 ∨ c.peerClosed ∨ 1024 ≤ c.outs.length ∨ meets ∨ s.pwr.phase ≠ .running then s
      else
        let rqn := if j.ts = 0 then c.rqn + 1 else j.ts.toNat
        let rd := decide (dType o.desc = 1)
        let issue (s : State) : State :=
          let s := (s.countCh x.eng 0x06 1).setJent i { s.jent i with ts := BitVec.ofNat 64 rqn }
          let c := s.xing n
          let s := s.setXing n { c with rqn := max c.rqn rqn, outs := c.outs.put rqn (some ⟨i, rd, w, woff, x.len, x.mem, 0, none⟩) none }
          s.setStep i (some { x with rqn := some (n, rqn) })
        if rd then ((issue s).flxPut n 0x11 (reqHeader rqn w key woff x.len 0)).flxPump n
        else match (chReadPieces x.off x.mem).run s with
          | .error (0x100, _) _ => s
          | .error (st, det) s => s.remoteEnd i x (some (st, j.done, det))
          | .ok d s => (((issue s).vcfStat j.vcf 3 x.len).putFrags n 0x10 rqn w key woff d).flxPump n
  | _, _ => s

/-- Every waiting step of a crossing tries again. -/
def State.flxKick (s : State) (n : Nat) : State :=
  (s.vol.steps.map (·.1)).foldl (fun s i => match s.op? i with
    | some o => if (opRemote o).map (·.1) = some n then s.flxStart i else s
    | none => s) s

/-- The steps whose requests are in flight on a crossing become waiting steps again. -/
def State.unissue (s : State) (n : Nat) : State :=
  { s with vol := { s.vol with steps := s.vol.steps.map (fun e => (e.1, e.2.map (fun x =>
    if x.rqn.map (·.1) = some n ∧ ¬ x.remoteDone then { x with rqn := none } else x))) } }

/-- The channel status of a remote STATUS (R482, R483). -/
def remoteStatus (st : Nat) : Nat := if st = 6 then 0x0F else if st = 7 then 0x0E else 0x11

/-- The STATUS of a request of this side (R482, R483). -/
def State.flxResult (s : State) (n rqn st : Nat) : State :=
  let c := s.xing n
  match c.outs.get rqn none with
  | none => s
  | some q =>
    let s := s.setXing n { c with outs := c.outs.erase rqn }
    match s.step? q.op, s.op? q.op with
    | some x, some o =>
      if x.rqn ≠ some (n, rqn) ∨ x.remoteDone then s
      else if st = 0 then s.remoteEnd q.op x none
      else if dType o.desc = 3 then s.remoteEnd q.op x (some (0x11, (s.jent q.op).done, st))
      else s.remoteEnd q.op x (some (remoteStatus st, (s.jent q.op).done, st + 256))
    | _, _ => s

/-! ## States of a crossing (R468) -/

/-- The crossing closes; its waiting steps end as for a lost one. -/
def State.flxClosed (s : State) (n : Nat) : State :=
  let x := s.xing n
  ((s.setXing n { x with
    st := 0, unacked := [], later := [], outs := [], ins := [], closing := 0, peerClosed := false, resumed := false }).unissue n).flxKick n

/-- A close in progress goes on (R468); waiting steps try again. -/
def State.flxSettle (s : State) (n : Nat) : State :=
  let x := s.xing n
  let idle := x.outs.isEmpty && x.ins.isEmpty
  if x.st ≠ 2 then s
  else if x.peerClosed ∧ idle then s.flxClosed n
  else if x.closing = 1 ∧ idle then ((s.setXing n { x with closing := 2 }).flxPut n 0x04 []).flxPump n
  else if x.closing = 2 ∧ x.unacked.isEmpty then s.flxClosed n
  else s.flxKick n

/-- The crossing becomes LOST (R468, R484). -/
def State.flxLost (s : State) (n : Nat) : State :=
  let x := s.xing n
  let s := s.setXing n { x with
    st := 4, unacked := [], later := [], outs := [], ins := [], closing := 0, peerClosed := false, resumed := false }
  ((s.flxEvent 0).unissue n).flxKick n

/-- The crossing becomes OPEN under a new epoch (R468, R471, R477): requests in flight wait to be sent again. -/
def State.flxOpen (s : State) (n version epoch : Nat) : State :=
  let x := s.xing n
  let x := { x with
    st := 2, reason := 0, version := version, epoch := epoch, seq := 0, ack := 0, later := [], unacked := [], outs := [], ins := [],
    record := if version < 0x40 then [] else x.record, rejoin := true, closing := min x.closing 1, peerClosed := false, unseq := 0,
    resumed := false }
  let s := s.setXing n { x with link := (s.firstUp x).getD 0 }
  let s := s.withCfg (fun c => { c with flxEpochs := c.flxEpochs.put n epoch 0 })
  (s.flxEvent 1).unissue n

/-- The versions of R470, highest first. -/
def flxVersions : List Nat := [0x41, 0x40, 0x31, 0x30, 0x21, 0x20]

/-- The version two ranges choose; `none` also where it lacks the entry's ENCAP or PROTECT (R470, R473). -/
def Xing.choose (x : Xing) (minv maxv : Nat) : Option Nat :=
  match flxVersions.find? (fun v => decide (minv ≤ v ∧ v ≤ maxv ∧ bits (x.e 0) 23 16 ≤ v ∧ v ≤ bits (x.e 0) 15 8)) with
  | .none => .none
  | some v =>
    if (x.encap = 1 ∧ v < 0x30) ∨ (x.encap = 2 ∧ v < 0x31) ∨ (x.protect ∧ v < 0x21) then .none else some v

/-! ## Receiving -/

/-- A frame is dropped and counted (R460, R462, R491). -/
def State.flxDrop (s : State) (l : Nat) : State :=
  (s.setRegF (offFl l) 63 48 (min 0xFFFF (s.regF (offFl l) 63 48 + 1))).countFlx (l / 4) 0x05 1

/-- Whether a frame's protection is what its crossing asks for (R480). -/
def protOk (x : Xing) (h : FlxHdr) : Bool := decide (h.prot = x.protect) && (!h.prot || h.tagOk)

/-- A frame is received and counted (R493). -/
def State.flxCounted (s : State) (h : FlxHdr) (len : Nat) : State :=
  let n := h.dst.toNat
  let s := (s.xStat n 1 1).xStat n 3 (32 + len + (if h.prot then 16 else 0))
  s.countFlx (h.link.val / 4) 0x03 1

/-- A frame fails its tag (R480). -/
def State.tagFail (s : State) (h : FlxHdr) : State :=
  ((s.xStat h.dst.toNat 6 1).countFlx (h.link.val / 4) 0x06 1).flxEvent 5

/-- Whether frames are received on a link: in RUN, with the link up; after the notices of a landing they are dropped (R486). -/
def State.flxHears (s : State) (l : Nat) : Bool := decide (s.pwr.phase = .running ∧ s.flxSt l = 3)

/-- The checks of R462 and R480: whether the frame goes on.  `epoch` is what its EPOCH is held against. -/
def State.flxRx (s : State) (h : FlxHdr) (states : List Nat) (epoch : Xing → Nat) (len : Nat) : Bool × State :=
  let x := s.xing h.dst.toNat
  if ¬ s.flxHears h.link.val then (false, s)
  else if ¬ h.zeroOk ∨ ¬ states.contains x.st ∨ h.src.toNat ≠ x.peerXid ∨ h.epoch.toNat ≠ epoch x then (false, s.flxDrop h.link.val)
  else if ¬ protOk x h then (false, s.tagFail h)
  else (true, s.flxCounted h len)

/-- Whether ACK_US has passed since a SACK last had a frame sent again (R475). -/
def Xing.mayFast (x : Xing) (now : Word) (f : FlxFrame) : Bool :=
  match f.sackAt with
  | .none => true
  | some t => decide (t.toNat + 1000 * bits (x.e 5) 9 0 ≤ now.toNat)

/-- ACK and SACK of a frame (R462, R473, R475): what they name is acknowledged; a frame missing before one received is sent
again, at most once per ACK_US. -/
def State.flxAcked (s : State) (h : FlxHdr) : State :=
  let n := h.dst.toNat
  let x := s.xing n
  let a := h.ack.toNat
  if ¬ h.ackv then s
  else
    let sel := decide (0x30 ≤ x.version)
    let sacked (q : Nat) : Bool := sel && decide (a + 2 ≤ q) && h.sack.getLsbD (q - a - 2)
    let rest := x.unacked.filter (fun f => decide (f.tries = 0) || (!decide (f.seq ≤ a) && !sacked f.seq))
    let top := ((List.range 16).filter (fun i => sel && h.sack.getLsbD i)).foldl (fun m i => max m (a + 2 + i)) 0
    let miss := rest.filter (fun f => decide (0 < f.tries ∧ f.seq < top) && x.mayFast s.live.time f)
    let s := s.setXing n { x with unacked := rest.map (fun f =>
      if miss.any (fun g => decide (g.seq = f.seq)) then { f with sackAt := some s.live.time } else f) }
    (miss.foldl (fun s f => s.flxRetry n f.seq) s).flxPump n

/-- ACK moves on over the SEQs received. -/
def ackOver : Nat → Nat → List Nat → Nat × List Nat
  | 0, a, l => (a, l)
  | k + 1, a, l => if l.contains (a + 1) then ackOver k (a + 1) (l.erase (a + 1)) else (a, l)

/-- Results that waited for the frames before them (R474, R483). -/
def State.flxDue (s : State) (n : Nat) : State :=
  let x := s.xing n
  x.outs.foldl (fun s e => match e.2 with
    | some q => match q.status with
      | some (st, _, sq) => if sq ≤ x.ack then s.flxResult n e.1 st else s
      | none => s
    | none => s) s

/-- A sequenced frame (R474): a new one within the window acts, a duplicate is only acknowledged.  One whose memory access must
wait is left unacknowledged, and comes again. -/
def State.flxSeq (s : State) (h : FlxHdr) (len : Nat) (body : State → Option State) : State :=
  let n := h.dst.toNat
  let (ok, s) := s.flxRx h [1, 2, 3] (·.epoch) len
  if ¬ ok then s
  else
    let s := s.flxAcked h
    let x := s.xing n
    let q := h.seq.toNat
    if q ≤ x.ack ∨ x.later.contains q then (s.flxUnseq n 0).flxSettle n
    else if x.ack + 1024 < q then s.flxSettle n
    else match body s with
      | none => s
      | some s =>
        let x := s.xing n
        let (a, l) := ackOver 1024 x.ack (q :: x.later)
        (((s.setXing n { x with ack := a, later := l }).flxUnseq n 0).flxDue n).flxSettle n

/-- STATUS is sent (R464). -/
def State.sendStatus (s : State) (n rqn st cnt : Nat) : State :=
  (s.flxPut n 0x13 (wordBytes (field 47 0 rqn ||| field 55 48 st) ++ wordBytes (field 31 0 cnt))).flxPump n

/-- A request of the peer ends: its result is kept among the last 4,096 (R477), and STATUS is sent. -/
def State.endIn (s : State) (n rqn st cnt : Nat) : State :=
  let x := s.xing n
  let r := x.record ++ [(rqn, st, cnt)]
  (s.setXing n { x with ins := x.ins.erase rqn, record := r.drop (r.length - 4096) }).sendStatus n rqn st cnt

/-- FLX_WIN_w_LO, SIZE, KEY, ALLOW (R495). -/
def State.winReg (s : State) (w k : Nat) : Word := s.reg (offFlx 0 + 0x2000 + 0x20 * w + 8 * k)

/-- The checks 1 to 4 of R478; 0 where all pass.  A length outside R464's range counts as out of bounds (DEDUCED, log 21). -/
def State.winCheck (s : State) (n : Nat) (wr : Bool) (r : FlxReq) : Nat :=
  let w := r.window.toNat
  let lo := s.winReg w 0
  let allow := s.winReg w 3
  let size := bits (s.winReg w 1) 51 12 * 4096
  let len := r.rlen.toNat
  if ¬ bit lo 0 ∨ ¬ (bit allow 0 ∨ bits allow 12 1 = n) then 1
  else if ¬ bit lo (if wr then 2 else 1) then 2
  else if r.key ≠ s.winReg w 2 then 3
  else if size < r.woff.toNat + len ∨ len = 0 ∨ 262144 < len then 4
  else 0

/-- What the request record answers (R477): the stored result, or STALE below a full record. -/
def Xing.recorded (x : Xing) (rqn : Nat) : Option (Nat × Nat) :=
  match x.record.find? (fun e => decide (e.1 = rqn)) with
  | some (_, st, cnt) => some (st, cnt)
  | .none => if 4096 ≤ x.record.length ∧ x.record.all (fun e => decide (rqn < e.1)) then some (5, 0) else .none

/-- A failed check of a request's first fragment: its STATUS, and a key failure's report (R478, R494). -/
def State.failIn (s : State) (n rqn code : Nat) : State :=
  let s := if code = 3 then (s.xStat n 6 1).flxEvent 4 else s
  s.endIn n rqn code 0

/-- A WRITE fragment is placed (R474, R478, R479); `none` where the memory access must wait. -/
def State.placeFrag (s : State) (n rqn : Nat) (q : FlxIn) (roff : Nat) (data : List Byte) : Option State :=
  let lo := s.winReg q.window 0
  if ¬ bit lo 0 then some (s.endIn n rqn 1 q.placed)
  else if roff % fragMax (s.xing n).version ≠ 0 ∨ data.isEmpty ∨ q.len < roff + data.length then some (s.endIn n rqn 4 q.placed)
  else match s.hubPieces (bits lo 8 3) (bits lo 51 12 * 4096 + q.woff + roff) data.length true with
    | none => some (s.endIn n rqn 7 q.placed)
    | some l =>
      match (chWritePieces l data).run s with
      | .error (0x100, _) _ => none
      | .error _ s => some (s.endIn n rqn 7 q.placed)
      | .ok _ s =>
        let x := s.xing n
        let q := if q.frags.contains roff then q else { q with frags := roff :: q.frags, placed := q.placed + data.length }
        some (s.setXing n { x with ins := x.ins.put rqn (some q) none })

/-- A WRITE fragment (R477, R478). -/
def State.flxWriteIn (s : State) (n : Nat) (r : FlxReq) (data : List Byte) : Option State :=
  let x := s.xing n
  let rqn := r.rqn.toNat
  match x.recorded rqn with
  | some (st, cnt) => some (s.sendStatus n rqn st cnt)
  | none =>
    match x.ins.get rqn none with
    | some q => s.placeFrag n rqn q r.roff.toNat data
    | none =>
      let c := s.winCheck n true r
      if c ≠ 0 then some (s.failIn n rqn c)
      else s.placeFrag n rqn ⟨false, r.window.toNat, r.woff.toNat, r.rlen.toNat, [], 0, none⟩ r.roff.toNat data

/-- FLX_WRITE (R474, R478). -/
def execFlxWrite (h : FlxHdr) (r : FlxReq) (data : List Byte) (s : State) : Out :=
  .next (s.flxSeq h (32 + data.length) (fun s => s.flxWriteIn h.dst.toNat r data))

/-- Whether a full park area holds a line of these pieces unacknowledged (R343). -/
def State.anyHeld (s : State) (l : List (Nat × Nat)) : Bool :=
  l.any (fun p => match s.ownLine (p.1 / 256) with
    | some r => (s.vol.held.get r.port []).any (fun w => decide (w.dev = r.dev / 256))
    | none => false)

/-- Whether a WRITE placed in a window waits for lines a full park area holds (R343, R479). -/
def State.inHeld (s : State) (q : FlxIn) : Bool :=
  let lo := s.winReg q.window 0
  match s.hubPieces (bits lo 8 3) (bits lo 51 12 * 4096 + q.woff) q.len true with
  | some l => s.anyHeld l
  | none => false

/-- FLX_REQUEST_DONE (R304, R479): every line of a WRITE is accepted; STATUS OK is sent, then NOTIFY_SRC is raised (R495). -/
def execFlxRequestDone (x : Fin 4096) (rqn : BitVec 48) (s : State) : Out :=
  .next (
    let n := x.val
    match (s.xing n).ins.get rqn.toNat none with
    | none => s
    | some q =>
      if q.read ∨ q.placed < q.len ∨ s.pwr.phase ≠ .running ∨ s.inHeld q then s
      else
        let src := bits (s.winReg q.window 0) 63 52
        let s := s.endIn n rqn.toNat 0 q.len
        let s := if src < 512 then s else s.raise src
        s.flxSettle n)

/-- Reads pieces until one fails: the bytes before it, and the status of the failure; `none` where an access must wait. -/
def readUntil : State → List (Nat × Nat) → Option (List Byte × Nat × State)
  | s, [] => some ([], 0, s)
  | s, p :: r =>
    match (chReadPieces 0 [p]).run s with
    | .error (0x100, _) _ => none
    | .error (0x0F, _) s => some ([], 6, s)
    | .error _ s => some ([], 7, s)
    | .ok d s => match readUntil s r with
      | none => none
      | some (t, st, s) => some (d ++ t, st, s)

/-- A READ_REQ (R477, R478): READ_DATA with what can be read before a poisoned line, then STATUS. -/
def State.flxReadIn (s : State) (n : Nat) (r : FlxReq) : Option State :=
  let rqn := r.rqn.toNat
  match (s.xing n).recorded rqn with
  | some (st, cnt) => some (s.sendStatus n rqn st cnt)
  | none =>
    let c := s.winCheck n false r
    let lo := s.winReg r.window.toNat 0
    if c ≠ 0 then some (s.failIn n rqn c)
    else match s.hubPieces (bits lo 8 3) (bits lo 51 12 * 4096 + r.woff.toNat) r.rlen.toNat false with
      | none => some (s.endIn n rqn 7 0)
      | some l =>
        match readUntil s l with
        | none => none
        | some (_, 7, s) => some (s.endIn n rqn 7 0)
        | some (d, st, s) => some (((s.putFrags n 0x12 rqn r.window.toNat r.key r.woff.toNat d).flxPump n).endIn n rqn st d.length)

/-- READ_REQ (R478). -/
def execReadReq (h : FlxHdr) (r : FlxReq) (s : State) : Out :=
  .next (s.flxSeq h 32 (fun s => s.flxReadIn h.dst.toNat r))

/-- The part of a list of pieces from an offset on. -/
def slicePieces : List (Nat × Nat) → Nat → Nat → List (Nat × Nat)
  | [], _, _ => []
  | (a, n) :: r, off, len =>
    if len = 0 then []
    else if n ≤ off then slicePieces r (off - n) len
    else
      let k := min (n - off) len
      (a + off, k) :: slicePieces r 0 (len - k)

/-- A READ_DATA fragment goes to the memory of its step (R464, R483); a failed write ends the operation with BUS_ERROR. -/
def State.flxDataIn (s : State) (n : Nat) (r : FlxReq) (data : List Byte) : Option State :=
  let x := s.xing n
  let rqn := r.rqn.toNat
  match x.outs.get rqn none with
  | none => some s
  | some q =>
    if ¬ q.read ∨ q.len < r.roff.toNat + data.length then some s
    else match (chWritePieces (slicePieces q.mem r.roff.toNat data.length) data).run s with
      | .error (0x100, _) _ => none
      | .error (st, det) s =>
        match s.step? q.op with
        | some y => some (if y.rqn = some (n, rqn) then s.setStep q.op (some { y with fin := some (st, (s.jent q.op).done, det) }) else s)
        | none => some s
      | .ok _ s1 =>
        let s := s.noteHeld s1 q.op
        let x := s.xing n
        let s := s.setXing n { x with outs := x.outs.put rqn (some { q with got := q.got + data.length }) none }
        some (s.vcfStat (s.jent q.op).vcf 4 data.length)

/-- READ_DATA (R464). -/
def execReadData (h : FlxHdr) (r : FlxReq) (data : List Byte) (s : State) : Out :=
  .next (s.flxSeq h (32 + data.length) (fun s => s.flxDataIn h.dst.toNat r data))

/-- FLX_STATUS (R482, R483): a WRITE's result acts at once, a READ's once the frames before it have arrived. -/
def execFlxStatus (h : FlxHdr) (rqn : BitVec 48) (status : Byte) (count : BitVec 32) (s : State) : Out :=
  .next (s.flxSeq h 16 (fun s =>
    let n := h.dst.toNat
    let x := s.xing n
    match x.outs.get rqn.toNat none with
    | none => some s
    | some q =>
      if q.read then
        some (s.setXing n { x with
          outs := x.outs.put rqn.toNat (some { q with status := some (status.toNat, count.toNat, h.seq.toNat) }) none })
      else some (s.flxResult n rqn.toNat status.toNat)))

/-- CLOSE (R468). -/
def execClose (h : FlxHdr) (s : State) : Out :=
  .next (s.flxSeq h 0 (fun s => some (s.setXing h.dst.toNat { s.xing h.dst.toNat with peerClosed := true })))

/-- An unsequenced frame that only acknowledges (R463). -/
def State.flxPlain (s : State) (h : FlxHdr) : State :=
  let (ok, s) := s.flxRx h [1, 2, 3] (·.epoch) 0
  if ok then (s.flxAcked h).flxSettle h.dst.toNat else s

/-- ACK (R474). -/
def execAck (h : FlxHdr) (s : State) : Out := .next (s.flxPlain h)

/-- KEEPALIVE (R463). -/
def execKeepalive (h : FlxHdr) (s : State) : Out := .next (s.flxPlain h)

/-- NOTICE (R468): LANDING or HOLD pauses an OPEN crossing; below version 4.0 it becomes LOST. -/
def execNotice (h : FlxHdr) (kind : Byte) (s : State) : Out :=
  .next (
    let n := h.dst.toNat
    let (ok, s) := s.flxRx h [1, 2, 3] (·.epoch) 1
    if ¬ ok then s
    else
      let s := s.flxAcked h
      let x := s.xing n
      if x.st ≠ 2 ∨ (kind ≠ 1 ∧ kind ≠ 2) then s
      else if x.version < 0x40 then s.flxLost n
      else (s.setXing n { x with st := 3 }).flxEvent 2)

/-- Why a HELLO is refused (R472); 0 where it is not. -/
def State.helloCode (s : State) (n : Nat) (h : FlxHdr) (p : FlxHello) : Nat :=
  let x := s.xing n
  if ¬ x.valid then 3
  else if (x.choose p.minver.toNat p.maxver.toNat).isNone then 1
  else if p.ident ≠ x.e 1 ∨ p.ident = 0 ∨ p.ident = s.flxIdent then 2
  else if h.src.toNat ≠ x.peerXid then 3
  else if p.protect ≠ x.protect ∨ ¬ protOk x h then 4
  else if 0xFFFFFFFE < max p.epoch.toNat (s.epochCount n + 1) then 5
  else 0

/-- HELLO (R462, R468, R470 to R472). -/
def State.flxHello (s : State) (h : FlxHdr) (p : FlxHello) : State :=
  let n := h.dst.toNat
  let x := s.xing n
  let heard := decide (1 ≤ x.st ∧ x.st ≤ 3) || (decide (x.st = 4 ∧ 0x40 ≤ x.version) && p.rejoin)
  if ¬ h.zeroOk ∨ (x.valid ∧ ¬ heard) then s.flxDrop h.link.val
  else
    let s := s.flxCounted h 32
    let s := if x.valid ∧ x.protect ∧ ¬ protOk x h then s.tagFail h else s
    let c := s.helloCode n h p
    if c ≠ 0 then
      let s := (s.flxUnseq n 1).flxEvent 6
      if x.st = 1 then s.setXing n { s.xing n with st := 5, reason := c } else s
    else if x.st = 1 ∧ x.initiate ∧ p.ident.toNat < s.flxIdent.toNat then s
    else if x.st = 3 ∧ ¬ p.rejoin then s
    else if x.st = 2 ∧ p.epoch.toNat ≤ x.epoch then s.flxUnseq n 32
    else
      let v := (x.choose p.minver.toNat p.maxver.toNat).getD 0
      ((s.flxOpen n v (max p.epoch.toNat (s.epochCount n + 1))).flxUnseq n 32).flxKick n

/-- HELLO (R470). -/
def execHello (h : FlxHdr) (p : FlxHello) (s : State) : Out :=
  .next (if s.flxHears h.link.val then s.flxHello h p else s)

/-- HELLO_ACK (R468, R471): the answer to the last HELLO opens the crossing. -/
def execHelloAck (h : FlxHdr) (p : FlxHello) (s : State) : Out :=
  .next (
    let n := h.dst.toNat
    let (ok, s) := s.flxRx h [1, 3] (·.proposed) 32
    let x := s.xing n
    if ¬ ok ∨ p.ident ≠ x.e 1 ∨ x.proposed = 0 ∨ (x.choose p.maxver.toNat p.maxver.toNat).isNone then s
    else (s.flxOpen n p.maxver.toNat p.epoch.toNat).flxKick n)

/-- REFUSE (R468, R472). -/
def execRefuse (h : FlxHdr) (reason : Byte) (s : State) : Out :=
  .next (
    let n := h.dst.toNat
    let (ok, s) := s.flxRx h [1] (·.proposed) 1
    if ¬ ok then s
    else ((s.setXing n { s.xing n with st := 5, reason := reason.toNat % 32 }).flxEvent 6).flxKick n)

/-- NON_FLORIX_FRAME (R460, R463). -/
def execNonFlorixFrame (link : Fin 16) (s : State) : Out := .next (if s.flxHears link.val then s.flxDrop link.val else s)

/-! ## Timers and links -/

/-- KEEPALIVE_DUE (R463). -/
def execKeepaliveDue (x : Fin 4096) (s : State) : Out :=
  .next (if (s.xing x.val).st = 2 ∧ s.pwr.phase = .running then s.flxUnseq x.val 0 else s)

/-- RETRANSMIT_TIMEOUT (R475). -/
def execRetransmitTimeout (x : Fin 4096) (seq : BitVec 48) (s : State) : Out := .next (s.flxRetry x.val seq.toNat)

/-- LOSS_LIMIT_EXPIRY (R468): it does not run in HELLO for a side that waits. -/
def execLossLimitExpiry (x : Fin 4096) (s : State) : Out :=
  .next (
    let c := s.xing x.val
    if s.pwr.phase = .running ∧ (c.st = 2 ∨ (c.st = 1 ∧ c.initiate)) then s.flxLost x.val else s)

/-- LANDING_WAIT_EXPIRY (R468, R487). -/
def execLandingWaitExpiry (x : Fin 4096) (s : State) : Out :=
  .next (
    let c := s.xing x.val
    if s.pwr.phase = .running ∧ (c.st = 3 ∨ (c.st = 1 ∧ c.resumed)) then s.flxLost x.val else s)

/-- HELLO_RESEND (R468). -/
def execHelloResend (x : Fin 4096) (s : State) : Out :=
  .next (
    let c := s.xing x.val
    if s.pwr.phase = .running ∧ (c.st = 1 ∨ c.st = 3) ∧ c.initiate then s.sendHello x.val else s)

/-- REJOIN_TIMER (R468). -/
def execRejoinTimer (x : Fin 4096) (s : State) : Out :=
  .next (
    let c := s.xing x.val
    if s.pwr.phase = .running ∧ c.st = 4 ∧ 0x40 ≤ c.version ∧ c.initiate then
      (s.setXing x.val { c with st := 1, reason := 0, rejoin := true }).sendHello x.val
    else s)

/-- LINK_RETURN_TIMER (R475). -/
def execLinkReturnTimer (x : Fin 4096) (s : State) : Out :=
  .next (
    let c := s.xing x.val
    if s.pwr.phase = .running ∧ c.st = 2 ∧ c.link ≠ 0 ∧ s.flxSt (c.links.headD 0) = 3 then
      ((s.setXing x.val { c with link := 0 }).flxEvent 3).flxPump x.val
    else s)

/-- A FLX_PORT_EVENT bit, reported to the link's source (R494, R554). -/
def State.flxPortEvent (s : State) (l b : Nat) : State := (s.setRegF (offFlx (l / 4) + 8) b b 1).report (0x1D8 + l)

/-- MOD_PRESENT.FLX_PORT (R40). -/
def State.flxPresent (s : State) (p : Nat) : State :=
  s.present (20 + p) ((List.range 4).any (fun k => decide (s.flxSt (4 * p + k) = 3)))

/-- A link leaves UP for another state; its crossings fail over (R475). -/
def State.flxLeave (s : State) (l st : Nat) : State :=
  let s := (s.setRegF (offFl l) 2 0 st).flxPresent (l / 4)
  (s.live.xs.map (·.1)).foldl (fun s n =>
    let x := s.xing n
    if x.st = 2 ∧ x.linkNo = l then s.flxFailover n else s) s

/-- FLX_LINK_DOWN (R475, R494). -/
def execFlxLinkDown (link : Fin 16) (s : State) : Out :=
  .next (if ¬ s.mainOn ∨ s.flxSt link.val ≠ 3 then s else (s.flxLeave link.val 1).flxPortEvent link.val 0)

/-- The OPEN crossings that list a link that has come up (R475): frames that had no link move to one that is up, and waiting frames leave. -/
def State.flxJoin (s : State) (l : Nat) : State :=
  (s.live.xs.map (·.1)).foldl (fun s n =>
    let x := s.xing n
    if x.st ≠ 2 ∨ ¬ x.links.contains l then s
    else if s.xUp n then s.flxPump n
    else s.flxFailover n) s

/-- A link comes up (R490, R494, R598): an enabled port's link that has a MAC address. -/
def State.flxUp (s : State) (l : Nat) : State :=
  if (s.flxSt l ≠ 1 ∧ s.flxSt l ≠ 2) ∨ ¬ bit (s.reg (offFlx (l / 4))) 0 ∨ s.reg (offFl l + 8) = 0 then s
  else (((s.setRegF (offFl l) 2 0 3).flxPresent (l / 4)).flxJoin l).flxPortEvent l 1

/-- FLX_LINK_UP (R494). -/
def execFlxLinkUp (link : Fin 16) (s : State) : Out := .next (if s.mainOn then s.flxUp link.val else s)

/-! ## Commands (R466, R485, R493) -/

/-- A field of doubleword 5 of an entry, clamped (R466). -/
def clampX5 (w : Word) : List (Nat × Nat) × Word :=
  let c (dflt lo hi v : Nat) : Nat := if v = 0 ∧ dflt ≠ 0 then dflt else clampTo lo hi v
  let fs := [(9, 0, c 20 5 1000), (14, 10, c 16 1 16), (31, 16, c 20 5 1000), (47, 32, c 0 0 60000)]
  fs.foldl (fun (a : List (Nat × Nat) × Word) (f : Nat × Nat × (Nat → Nat)) =>
    let g := bits w f.1 f.2.1
    let u := f.2.2 g
    (if g = u then a.1 else a.1 ++ [(g, u)], a.2 ||| field f.1 f.2.1 u)) ([], 0)

/-- An entry as XSYNC stores it, with its clamps as (given, used) (R465, R466). -/
def clampEntry (d : List Byte) : List (Nat × Nat) × List Word :=
  let e0 := dw d 0 &&& (msk 5 0 ||| msk 35 8 ||| msk 58 40)
  let k := bits e0 58 56
  let k' := clampTo 1 4 k
  let (l5, e5) := clampX5 (dw d 5)
  (if bit e0 0 then (if k = k' then l5 else (k, k') :: l5) else [],
   [setBits e0 58 56 k', dw d 1, dw d 2 &&& msk 47 0, dw d 3, dw d 4, e5, dw d 6 &&& msk 51 6, 0])

/-- An entry without the fields that may change in any state (R485). -/
def entryFixed (e : List Word) : List Word :=
  match e with
  | [a, b, c, d, f, _, h, i] => [a &&& ~~~ msk 4 4, b, c, d, f, h, i]
  | l => l

/-- The CODE a frame key gives its entry (R466, R480): `mfWaits` where its record has to be waited for (R259). -/
def State.frameKeyCode (s : State) (a : Nat) : Nat :=
  match s.readAbs a 64 with
  | .ok (d, .good) _ => if (keyUnwrap s.kek (d.take 40)).isSome then 0 else 6
  | .wait => mfWaits
  | _ => 6

/-- The CODE of an entry: BAD_ARG where it is refused (R466). -/
def State.entryCode (s : State) (e : List Word) : Nat :=
  let e0 := e.getD 0 0
  let l := entryLinks e0
  if ¬ bit e0 0 then 0
  else if bits e0 3 2 = 3 ∨ l.any (fun k => decide (s.flxSt k = 0)) ∨ ¬ l.Nodup ∨ bits e0 15 8 < bits e0 23 16 then 6
  else if bit e0 1 then s.frameKeyCode (e.getD 6 0).toNat
  else 0

/-- XSYNC (R466, R485): its CODE and the state. -/
def State.xsync (s : State) (n : Nat) : Nat × State :=
  let t := s.reg (offFlx 0 + 0x1008)
  if ¬ bit t 0 then (6, s)
  else match s.readAbs (bits t 51 18 * 262144 + 64 * n) 64 with
    | .ok (d, .good) s =>
      let (cl, e) := clampEntry d
      let x := s.xing n
      if s.entryCode e ≠ 0 then (s.entryCode e, s)
      else if x.st ≠ 0 ∧ entryFixed e ≠ entryFixed x.entry then (2, s)
      else (0, cl.foldl (fun s c => s.addReport (entry 8 0 0 n c.1 c.2)) (s.setXing n { x with entry := e }))
    | .wait => (mfWaits, s)
    | _ => (6, s)

/-- XOPEN (R468, R493). -/
def State.xopen (s : State) (n : Nat) : Nat × State :=
  let x := s.xing n
  if x.st ≠ 0 ∧ x.st ≠ 4 ∧ x.st ≠ 5 then (2, s)
  else if ¬ x.valid then (6, s)
  else
    let s := s.setXing n { x with st := 1, reason := 0, resumed := false }
    (0, if x.initiate then s.sendHello n else s)

/-- XCLOSE (R468, R493). -/
def State.xclose (s : State) (n : Nat) : Nat × State :=
  let x := s.xing n
  if x.st ≠ 2 then (2, s) else (0, (s.setXing n { x with closing := max x.closing 1 }).flxSettle n)

/-- XQUERY (R493). -/
def State.xquery (s : State) (n : Nat) : Nat × State :=
  let x := s.xing n
  let o := offFlx 0 + 0x1020
  let s := s.setReg o (field 2 0 x.st ||| field 7 3 x.reason ||| field 15 8 x.version ||| field 19 16 x.linkNo ||| field 63 32 x.epoch)
  (0, (List.range 8).foldl (fun s k => s.setReg (o + 8 + 8 * k) (s.live.xlatched.get (2 ^ 32 + 64 * n + 8 * k) 0)) s)

/-- A Florix command runs; while it waits for memory BUSY reads 1 (R493). -/
def State.flxRun (s : State) (v : Word) : State :=
  let n := bits v 19 8
  let op := bits v 7 0
  let (c, s) := if bits v 63 20 ≠ 0 then (6, s)
    else if op = 1 then s.xsync n
    else if op = 2 then s.xopen n
    else if op = 3 then s.xclose n
    else if op = 4 then s.xquery n
    else (1, s)
  let wait := decide (c = mfWaits)
  { s with vol := { s.vol with flxWait := if wait then some v else none } }.setReg (offFlx 0 + 0x1018)
    (BitVec.ofNat 64 (if wait then 8 else c))

/-- A write of FLX_CMD (R493): ignored while a command runs. -/
def State.flxCmd (s : State) (v : Word) : State := if s.vol.flxWait.isSome then s else s.flxRun v

/-- The management commands that wait for memory are tried again (R410, R493). -/
def State.cmdRetry (s : State) : State :=
  let s := s.mfRetry
  match s.vol.flxWait with
  | some v => if s.pwr.phase = .running then s.flxRun v else s
  | none => s

/-- A Florix command's row. -/
def flxRow (src : Src) (op n : Nat) (s : State) : Out :=
  .next (if s.srcMay src 1 ∧ s.pwr.phase = .running then s.flxCmd (field 7 0 op ||| field 19 8 n) else s)

/-- XSYNC (R466). -/
def execXsync (src : Src) (x : Fin 4096) (s : State) : Out := flxRow src 1 x.val s
/-- XOPEN (R468). -/
def execXopen (src : Src) (x : Fin 4096) (s : State) : Out := flxRow src 2 x.val s
/-- XCLOSE (R468). -/
def execXclose (src : Src) (x : Fin 4096) (s : State) : Out := flxRow src 3 x.val s
/-- XQUERY (R493). -/
def execXquery (src : Src) (x : Fin 4096) (s : State) : Out := flxRow src 4 x.val s

/-- The crossings of OPEN at harbour exit (R598): XSYNC, then XOPEN; a refused one is logged as DROPPED. -/
def State.openCrossings (s : State) : State :=
  if ¬ bit (s.reg (offFlx 0 + 0x1008)) 0 then s
  else (List.range 4096).foldl (fun s n =>
    if (s.live.plan.get (0x0807 * 65536 + n / 64) 0).testBit (n % 64) then
      match s.xsync n with
      | (0, s) => (s.xopen n).2
      | _ => s.addReport (entry 8 4 0x0807 (n / 64) (2 ^ (n % 64)) 0)
    else s) s

/-! ## Landing and resume (R486, R487) -/

/-- The notices of a landing: three on each OPEN crossing. -/
def State.flxNotices (s : State) : State :=
  (s.live.xs.map (·.1)).foldl (fun s n =>
    if (s.xing n).st = 2 then ((s.flxUnseq n 1).flxUnseq n 1).flxUnseq n 1 else s) s

/-- After a resume a crossing that was in HELLO, OPEN or PAUSED starts in HELLO with REJOIN. -/
def State.flxResume (s : State) : State :=
  (s.live.xs.map (·.1)).foldl (fun s n =>
    let x := s.xing n
    if 1 ≤ x.st ∧ x.st ≤ 3 then
      let s := s.setXing n { x with
        st := 1, rejoin := true, unacked := [], later := [], outs := [], ins := [], peerClosed := false, resumed := true }
      if x.initiate then s.sendHello n else s
    else s) s

/-! ## READ, WRITE, MIRROR-WRITE (R424, R439, R481, R483) -/

/-- A step that moves data between memory and a target begins: its NVMe part goes to a path, its Florix part to its
crossing. -/
def State.moveStep (s : State) (i : Nat) (o : Op) : State :=
  let j := s.jent i
  let d := o.desc
  let rd := decide (dType d = 1)
  let nvme := match o.target with
    | some t => decide (tKind t = 1 ∧ bits (dw d 0) 47 32 ≠ 0xFFFF)
    | none => false
  match s.engineFor o.pool with
  | none => s
  | some e =>
    let k := min (match o.target with | some t => if nvme then s.nvmeMax t else stepMax | none => stepMax) (dLen d - j.done)
    let s := s.runCh i (do
      let r ← ranges1 j.vcf d
      let mem ← chPiecesAll j.vcf rd (sliceRanges r j.done k)
      modify (fun s =>
        let s := if nvme then s.vcfStat j.vcf (if rd then 4 else 3) k else s
        s.startStep i ⟨e, j.done, k, mem, none, !nvme, (opRemote o).isNone || o.degraded, none, none, 0, 0, none⟩))
    (s.dispatchNvme i).flxStart i

/-- READ (R424). -/
def execRead (op : BitVec 22) (s : State) : Out :=
  .next (s.typeRow op.toNat (fun t => decide (t = 1)) (fun s o => s.moveStep op.toNat o))
/-- WRITE (R424). -/
def execWrite (op : BitVec 22) (s : State) : Out :=
  .next (s.typeRow op.toNat (fun t => decide (t = 2)) (fun s o => s.moveStep op.toNat o))
/-- MIRROR-WRITE (R481). -/
def execMirrorWrite (op : BitVec 22) (s : State) : Out :=
  .next (s.typeRow op.toNat (fun t => decide (t = 3)) (fun s o => s.moveStep op.toNat o))

end Sys2Proof.Machine
end

