-- ==== Sys2Proof/Machine/Rtu.lean ====
section
/-! DEFINITION. The root-of-trust unit (R531 to R553): its mailbox, tokens, debug levels, life cycle, reports and wraps. -/

namespace Sys2Proof.Machine

/-! ## Life cycle and pending requests -/

/-- The life cycle: the highest fuse blown (R531): 0 FACTORY, 1 PROVISIONED, 2 DEPLOYED, 3 RETIRED. -/
def Otp.cycle (o : Otp) : Nat := if o.life.getLsbD 2 then 3 else if o.life.getLsbD 1 then 2 else if o.life.getLsbD 0 then 1 else 0

/-- Whether the part is a TZ-9600-F (R3). -/
def State.partF (s : State) : Bool := decide (s.pwr.part = 3)

/-- What forbids a rise of the key epoch (R537): parked lines or carried strays. -/
def State.epochHeld (s : State) : Bool := s.nv.parks.any (fun e => !e.2.isEmpty) || !s.nv.carried.isEmpty

/-- CODE of a request that waits for the next start (R536, R537, R540): 0 where it can be held pending. -/
def State.pendCode (s : State) : Nat :=
  if s.nv.cfg.lcPending ≠ 0 ∨ s.nv.cfg.fullPending then 5
  else if 1024 ≤ s.nv.otp.epoch then 6
  else if s.epochHeld then 5 else 0

/-! ## The buffer -/

/-- Bytes of RTU_BUF. -/
def State.rtuBuf (s : State) (off n : Nat) : List Byte :=
  (List.range n).map (fun i => (wordBytes (s.reg (offRtu + 0x1000 + (off + i) / 8 * 8))).getD ((off + i) % 8) 0)

/-- Writes doublewords of RTU_BUF. -/
def State.setRtuBuf (s : State) : Nat → Nat → List Byte → State
  | 0, _, _ => s
  | k + 1, off, l =>
    if l.isEmpty then s else (s.setReg (offRtu + 0x1000 + off) (leWord (l.take 8))).setRtuBuf k (off + 8) (l.drop 8)

/-- Clears RTU_BUF (R553). -/
def State.clearRtuBuf (s : State) : State :=
  { s with live := { s.live with regs := s.live.regs.filter (fun e =>
    !decide (offRtu + 0x1000 ≤ e.1 ∧ e.1 < offRtu + 0x2000)) } }

/-- Output of a command: placed from the start of RTU_BUF, with its LENGTH. -/
def State.rtuOut (s : State) (l : List Byte) : Nat × Nat × State := (0, l.length, s.setRtuBuf 512 0 l)

/-! ## Claims (R551) -/

/-- Who a source is to the RTU: the OWNER value it claims with, and its column of R542 (0 K, 1 H, 2 B).  A probe in control space
acts as keel (DEDUCED, log 21). -/
def State.rtuWho (s : State) (src : Src) : Option (Nat × Nat) :=
  match src with
  | .lp n => if ¬ s.mainOn then none else if (s.slip n).level = 0 then some (1, 0) else if (s.slip n).level = 1 then some (1, 1) else none
  | .service => if s.std.pwrgood then some (2, 2) else none
  | .probe => if s.mainOn ∧ 1 ≤ s.debug then some (1, 0) else none
  | .remote l => if s.mainOn ∧ l.toNat ≤ 1 then some (1, l.toNat) else none

/-- A write of RTU_CLAIM (R551). -/
def State.rtuClaim (s : State) (src : Src) (v : Word) : State :=
  let own := s.regF (offRtu + 8) 1 0
  match s.rtuWho src with
  | none => s
  | some (w, _) =>
    let k := bits v 1 0
    if own = 0 ∧ k = w then s.setRegF (offRtu + 8) 1 0 w
    else if own = w ∧ k = 0 then (s.setRegF (offRtu + 8) 1 0 0).clearRtuBuf
    else s

/-! ## Tokens (R543) -/

/-- Bytes of a token. -/
def tok (t : List Byte) (off n : Nat) : List Byte := (t.drop off).take n

/-- CODE of a token for an action (R543): `allowed` says whether the signer may, by the owner bit. -/
def State.tokenCode (s : State) (t : List Byte) (actions : List Nat) (allowed : Nat → Bool → Bool) : Nat :=
  let w := leWord (tok t 0 8)
  let action := bits w 10 8
  let owner := bit w 16
  let key := tok t 0x40 1793
  if bits w 7 0 ≠ 1 ∨ bits w 15 11 ≠ 0 ∨ bits w 63 17 ≠ 0 ∨ (tok t 8 8).any (· ≠ 0) ∨ (tok t 0x30 16).any (· ≠ 0) ∨
    (tok t 0x741 7).any (· ≠ 0) ∨ ¬ actions.contains action then 3
  else if tok t 0x10 16 ≠ deviceId ∨
    tok t 0x20 16 ≠ wordBytes (s.reg (offRtu + 0x20)) ++ wordBytes (s.reg (offRtu + 0x28)) then 3
  else if digest64 key ≠ (if owner then s.nv.otp.owner else Config.svfAnchor) ∨
    ¬ Config.verify key (digest64 (tok t 0 0x748)) (tok t 0x748 1280) then 4
  else if ¬ allowed action owner then 2 else 0

/-! ## Commands (R542) -/

/-- A command that fails. -/
def State.rtuFail (s : State) (c : Nat) : Nat × Nat × State := (c, 0, s)

/-- The debug level is opened or closed (R544); the highest since the last cold start is kept (R539). -/
def State.setDebug (s : State) (v : Nat) : State :=
  { s with live := { s.live with debugSince := max s.live.debugSince v } }.setRegF 0x18 6 5 v

/-- DEBUG_OPEN (R543, R544). -/
def State.rtuDebugOpen (s : State) : Nat × Nat × State :=
  let cycle := s.nv.otp.cycle
  let free := s.partF && decide (cycle = 0)
  let t := s.rtuBuf 0 0xC48
  let action := bits (leWord (tok t 0 8)) 10 8
  let c := if cycle = 3 then 2
    else if free then (if action = 1 ∨ action = 2 then 0 else 3)
    else s.tokenCode t [1, 2] (fun a owner =>
      if cycle = 0 then !owner else if cycle = 1 then true else !(owner && decide (a = 2)))
  if c ≠ 0 then s.rtuFail c
  else if action = 1 then (if s.debug = 2 then s.rtuFail 5 else (0, 0, s.setDebug 1))
  else if s.pendCode ≠ 0 then s.rtuFail s.pendCode
  else (0, 0, s.withCfg (fun c => { c with fullPending := true }))

/-- DEBUG_CLOSE (R542): halts end with the level. -/
def State.rtuDebugClose (s : State) : Nat × Nat × State :=
  let s := s.lpsAll.foldl (fun s n => s.setLpv n { s.lpv n with halted := false }) s
  (0, 0, (s.setRegF 0x18 6 5 0).withCfg (fun c => { c with fullPending := false }))

/-- A request of R540: the life cycle it asks for, and the token it needs. -/
def State.rtuLife (s : State) (from' : List Nat) (notF : Bool) (off action pend : Nat) (allowed : Bool → Bool) (anchor : List Byte) :
    Nat × Nat × State :=
  if ¬ from'.contains s.nv.otp.cycle ∨ (notF ∧ s.partF) then s.rtuFail 2
  else
    let c := s.tokenCode (s.rtuBuf off 0xC48) [action] (fun _ o => allowed o)
    if c ≠ 0 then s.rtuFail c
    else if s.pendCode ≠ 0 then s.rtuFail s.pendCode
    else (0, 0, s.withCfg (fun c => { c with lcPending := pend, lcAnchor := anchor }))

/-- FACTORY_RESET (R540). -/
def State.rtuFactoryReset (s : State) : Nat × Nat × State :=
  if s.nv.otp.cycle ≠ 0 ∨ ¬ s.partF then s.rtuFail 2
  else if s.pendCode ≠ 0 then s.rtuFail s.pendCode
  else (0, 0, s.withCfg (fun c => { c with lcPending := 4, lcAnchor := [] }))

/-- The lowest SVN of a group's accepted sections in the running image (R534). -/
def State.lowestSvn (s : State) (g : Nat) : Option Nat :=
  ((s.live.svns.filter (fun e => decide (svnGroup e.1 = g ∧ 0 < e.2))).map (fun e => e.2 - 1)).min?

/-- SVN_COMMIT (R534). -/
def State.rtuSvn (s : State) : Nat × Nat × State :=
  let req := s.rtuBuf 0 4
  let new := (List.range 4).map (fun g =>
    let old := (s.nv.cfg.svnPending.getD s.nv.otp.floors).getD g 0
    let r := (req.getD g 0).toNat
    match s.lowestSvn g with
    | none => old
    | some m => if r = 0 then old else max old (min r (min m 255)))
  (0, 0, s.withCfg (fun c => { c with svnPending := some new }))

/-- The report of ATTEST (R539). -/
def State.attestReport (s : State) : List Byte :=
  let st := s.reg 0x18
  let acc := (s.live.measures.filter (fun m => decide (m ≠ List.replicate 64 0))).length
  let w0 := field 7 0 1 ||| field 15 8 acc ||| field 17 16 s.nv.otp.cycle ||| field 19 18 s.debug ||| field 21 20 s.live.debugSince |||
    field 22 22 (b2n (decide (s.live.unchecked ≠ 0))) ||| field 23 23 (bits st 8 8) ||| field 24 24 (bits st 9 9)
  let fl (g : Nat) : Nat := s.nv.otp.floors.getD g 0
  let w3 := field 7 0 (fl 0) ||| field 15 8 (fl 1) ||| field 23 16 (fl 2) ||| field 31 24 (fl 3)
  let l := wordBytes w0 ++ wordBytes s.identity ++ wordBytes (BitVec.ofNat 64 s.nv.otp.epoch) ++ wordBytes w3 ++
    wordBytes (field 31 0 s.live.landings ||| field 63 32 s.live.resumes) ++ wordBytes (field 15 0 (bits st 31 16)) ++
    wordBytes s.live.time ++ wordBytes s.live.unchecked ++ s.rtuBuf 0 32 ++ padTo 64 s.live.digest ++
    padTo 704 s.live.measures.flatten
  l ++ padTo 1280 (Config.sign (1 + s.regF (offRtu + 0x30) 63 32 + 2 ^ 32 * leNat s.live.digest) (digest64 l))

/-- The certificate of the identity key (R538). -/
def State.idCertBytes (s : State) : List Byte :=
  wordBytes (field 7 0 1 ||| field 11 8 s.pwr.part.toNat ||| field 19 12 s.pwr.stepping.toNat) ++
    toBytes Config.serial.toNat 16 ++ padTo 1800 (padTo 1793 Config.idKey) ++ padTo 1280 Config.idCert

/-- The certificate of the alias key (R538). -/
def State.aliasCertBytes (s : State) : List Byte :=
  let n := s.regF (offRtu + 0x30) 63 32
  let l := wordBytes 1 ++ padTo 64 s.live.digest ++ wordBytes (BitVec.ofNat 64 n) ++ wordBytes (BitVec.ofNat 64 s.nv.otp.epoch) ++
    padTo 1800 (padTo 1793 (Config.aliasKey s.live.digest n))
  l ++ padTo 1280 (Config.sign 0 (digest64 l))

/-- WRAP and WRAP_RANDOM (R542): a length other than 16, 24 or 32 is refused as BAD_TOKEN (DESIGN CHOICE, log 21). -/
def State.rtuWrap (s : State) (random : Bool) : Nat × Nat × State :=
  let n := ((s.rtuBuf 32 1).headD 0).toNat
  if n ≠ 16 ∧ n ≠ 24 ∧ n ≠ 32 then s.rtuFail 3
  else if random then
    let key := (List.range n).map (Config.freeByte s.free)
    s.tick1.rtuOut (keyWrap s.kek key)
  else
    let key := s.rtuBuf 0 n
    (s.setRtuBuf 4 0 (List.replicate 32 0)).rtuOut (keyWrap s.kek key)

/-- The sources R542 lets issue a command: K 0, H 1, B 2. -/
def rtuFrom (op : Nat) : List Nat :=
  if op ≤ 4 then [0, 1, 2] else if op = 5 ∨ op = 6 ∨ op = 9 then [0, 2] else if op = 12 ∨ op = 13 then [0, 1] else [0]

/-- One command: CODE, LENGTH and the state (R541, R542). -/
def State.rtuRun (s : State) (op col : Nat) : Nat × Nat × State :=
  if op = 0 ∨ 13 < op then s.rtuFail 1
  else if ¬ (rtuFrom op).contains col ∨ (s.nv.otp.cycle = 3 ∧ op ≠ 1 ∧ op ≠ 4) then s.rtuFail 2
  else match op with
    | 1 => (0, 0, s)
    | 2 => s.rtuOut s.attestReport
    | 3 => s.rtuOut s.aliasCertBytes
    | 4 => s.rtuOut s.idCertBytes
    | 5 => s.rtuDebugOpen
    | 6 => s.rtuDebugClose
    | 7 => s.rtuLife [0] true 0x100 3 1 (fun o => !o) (s.rtuBuf 0 64)
    | 8 => s.rtuLife [1] false 0 4 2 (fun o => o) []
    | 9 => s.rtuLife [0, 1, 2] true 0 5 3 (fun _ => true) []
    | 10 => s.rtuFactoryReset
    | 11 => s.rtuSvn
    | 12 => s.rtuWrap false
    | _ => s.rtuWrap true

/-- Whether the RTU takes commands: its start-up work is done and its island runs. -/
def State.rtuOn (s : State) : Bool := bit (s.reg offRtu) 0 && (s.mainOn || decide (s.pwr.phase = .startHold))

/-- A write of RTU_CMD (R542, R552): from a source that does not hold the claim it is ignored.  A set reserved bit gives BAD_OP
(DEDUCED, log 21). -/
def State.rtuCmd (s : State) (src : Src) (v : Word) : State :=
  match s.rtuWho src with
  | none => s
  | some (w, col) =>
    if ¬ s.rtuOn ∨ s.regF (offRtu + 8) 1 0 ≠ w then s
    else
      let (c, n, s) := if bits v 63 8 ≠ 0 then s.rtuFail 1 else s.rtuRun (bits v 7 0) col
      s.setReg (offRtu + 0x18) (field 3 0 c ||| field 31 16 n)

/-- A write of RTU_BUF (R553). -/
def State.rtuBufWrite (s : State) (src : Src) (off : Nat) (v : Word) : State :=
  match s.rtuWho src with
  | some (w, _) => if s.regF (offRtu + 8) 1 0 = w then s.setReg off v else s
  | none => s

/-- A read of an RTU register at an offset of the block (R550 to R553). -/
def State.rtuRead (s : State) (src : Src) (o : Nat) : Word :=
  let c := s.nv.cfg
  if o = 0 then
    (s.reg offRtu &&& (msk 0 0 ||| msk 7 7)) ||| field 1 1 (b2n (decide (s.nv.otp.owner ≠ []))) |||
      field 2 2 (b2n c.fullPending) ||| field 5 3 c.lcPending ||| field 6 6 (b2n c.svnPending.isSome)
  else if o = 0x10 then 0
  else if o = 0x30 then (s.reg (offRtu + 0x30) &&& msk 63 32) ||| field 10 0 s.nv.otp.epoch
  else if o = 0x38 then
    let fl (g : Nat) : Nat := s.nv.otp.floors.getD g 0
    field 7 0 (fl 0) ||| field 15 8 (fl 1) ||| field 23 16 (fl 2) ||| field 31 24 (fl 3)
  else if o = 0x40 then leWord (deviceId.take 8)
  else if o = 0x48 then leWord (deviceId.drop 8)
  else if 0x100 ≤ o ∧ o < 0x140 then leWord ((Config.svfAnchor.drop (o - 0x100)).take 8)
  else if 0x140 ≤ o ∧ o < 0x180 then leWord ((s.nv.otp.owner.drop (o - 0x140)).take 8)
  else if 0x1000 ≤ o then
    match s.rtuWho src with
    | some (w, _) => if s.regF (offRtu + 8) 1 0 = w then s.reg (offRtu + o) else 0
    | none => 0
  else s.reg (offRtu + o)

/-! ## Rows -/

/-- RTU_CLAIM (R551). -/
def execRtuClaim (src : Src) (v : BitVec 2) (s : State) : Out :=
  .next (if s.mainOn ∨ s.pwr.phase = .startHold then s.rtuClaim src (field 1 0 v.toNat) else s)

/-- A command's row. -/
def rtuRow (src : Src) (op : Nat) (s : State) : Out := .next (s.rtuCmd src (field 7 0 op))

/-- GET_STATUS (R542): RTU_STATUS is always current. -/
def execGetStatus (src : Src) (s : State) : Out := rtuRow src 1 s
/-- ATTEST (R539). -/
def execAttest (src : Src) (s : State) : Out := rtuRow src 2 s
/-- ALIAS_CERT (R538). -/
def execAliasCert (src : Src) (s : State) : Out := rtuRow src 3 s
/-- ID_CERT (R538). -/
def execIdCert (src : Src) (s : State) : Out := rtuRow src 4 s
/-- DEBUG_OPEN (R544). -/
def execDebugOpen (src : Src) (s : State) : Out := rtuRow src 5 s
/-- DEBUG_CLOSE (R542). -/
def execDebugClose (src : Src) (s : State) : Out := rtuRow src 6 s
/-- PROVISION (R540). -/
def execProvision (src : Src) (s : State) : Out := rtuRow src 7 s
/-- DEPLOY (R540). -/
def execDeploy (src : Src) (s : State) : Out := rtuRow src 8 s
/-- RETIRE (R540). -/
def execRetire (src : Src) (s : State) : Out := rtuRow src 9 s
/-- FACTORY_RESET (R540). -/
def execFactoryReset (src : Src) (s : State) : Out := rtuRow src 10 s
/-- SVN_COMMIT (R534). -/
def execSvnCommit (src : Src) (s : State) : Out := rtuRow src 11 s
/-- WRAP (R542). -/
def execWrap (src : Src) (s : State) : Out := rtuRow src 12 s
/-- WRAP_RANDOM (R542). -/
def execWrapRandom (src : Src) (s : State) : Out := rtuRow src 13 s

end Sys2Proof.Machine
end

