-- ==== Sys2Proof/Machine/Tally.lean ====
section
/-! DEFINITION. The tally (R616 to R638): watch-period boundaries, the dump ring, sampling. -/

namespace Sys2Proof.Machine

/-! ## The ring -/

/-- BASE and COUNT of the ring. -/
def State.ringBase (s : State) : Nat := bits (s.reg (offTally + 0x10)) 51 13 * 0x2000
/-- RECORDS. -/
def State.ringCount (s : State) : Nat := s.regF (offTally + 0x18) 16 0

/-- RING_VALID (R626, R635). -/
def State.ringValid (s : State) : Bool :=
  bit (s.reg (offTally + 0x10)) 0 && s.mappedDeck s.live.sets s.ringBase (s.ringCount * 0x2000)

/-- HEAD advances, wrapping to 0 (R626). -/
def State.ringNext (s : State) : State :=
  let h := s.regF (offTally + 0x20) 15 0
  s.setRegF (offTally + 0x20) 15 0 (if s.ringCount ≤ h + 1 then 0 else h + 1)

/-- Whether a counter exists (R616). -/
def State.counterExists (s : State) (i : Nat) : Bool := decide (512 ≤ i ∨ i / 8 < s.lpCount)

/-- The entry of a counter in a record (R627). -/
def State.tallyEntry (s : State) (i : Nat) : Word :=
  if ¬ s.counterExists i then 0
  else
    field 48 0 (bits (s.live.tally.get i 0) 48 0) ||| field 49 49 (b2n (s.live.changed.get i false)) |||
      field 63 56 (s.regF (offTally + 0x1000 + 8 * i) 7 0)

/-- A record of the closing period, without SKIPPED (R627). -/
def State.tallyRecord (s : State) (flags : Nat) (tbEnd : Word) : List Byte :=
  let head : List Word := [BitVec.ofNat 64 (s.live.tallySeq + 1), s.live.tallyStart, tbEnd,
    field 2 0 flags ||| field 23 16 s.lpCount ||| field 26 24 s.pwr.modid.val, 0, 0, 0, 0]
  let l := head ++ (List.range 800).map s.tallyEntry
  (l.map wordBytes).flatten ++ List.replicate 1728 0

/-- Writes lines of a record as full lines of an agent without a cache; a line with an open transaction
waits (R628, R629). -/
def writeRecordLines (s : State) : List (Nat × List Byte) → Acc Unit
  | [] => .ok () s
  | (ln, d) :: r =>
    match s.writeFull 999 ln d false false with
    | .ok _ s => writeRecordLines s r
    | .bus s => .bus s
    | .wait => .wait

/-- A record is abandoned (R629). -/
def State.dumpFailed (s : State) : State :=
  let s : State := { s with vol := { s.vol with dumps := s.vol.dumps.drop 1, skipped := s.vol.skipped + 1 } }
  (s.setRegF (offTally + 8) 1 1 1).ringNext

/-- Line 0 of a record with SEQUENCE 0 (R628 step 1). -/
def zeroLine (base : Nat) (d : List Byte) : Nat × List Byte := (base / 256, List.replicate 8 0 ++ (d.take 256).drop 8)

/-- The record at the front of `dumps` begins to be written: line 0 with SEQUENCE 0 (R628 step 1), the SKIPPED count fixed.  Where that
line has to wait its base is kept one higher. -/
def State.dumpStart (s : State) : State :=
  match s.vol.dumps with
  | [] => s
  | (_, d) :: r =>
    let d := d.take 0x1E ++ toBytes (min s.vol.skipped 0xFFFF) 2 ++ d.drop 0x20
    let base := s.ringBase + s.regF (offTally + 0x20) 15 0 * 0x2000
    let s : State := { s with vol := { s.vol with dumps := (base, d) :: r } }
    match writeRecordLines s [zeroLine base d] with
    | .ok _ s => s
    | .bus s => s.dumpFailed
    | .wait => { s with vol := { s.vol with dumps := (base + 1, d) :: r } }

/-- A record joins the dumps: one is written, one waits, an older waiting one is abandoned (R629). -/
def State.dumpAdd (s : State) (d : List Byte) : State :=
  match s.vol.dumps with
  | [] => { s with vol := { s.vol with dumps := [(0, d)] } }.dumpStart
  | [x] => { s with vol := { s.vol with dumps := [x, (0, d)] } }
  | x :: _ => { s with vol := { s.vol with dumps := [x, (0, d)], skipped := s.vol.skipped + 1 } }

/-- Flags of a boundary in the same tick as the last one join its record (R621). -/
def State.boundaryAgain (s : State) (flags : Nat) : State :=
  let f (e : Nat × List Byte) : Nat × List Byte :=
    if leNat (e.2.take 8) = s.live.tallySeq then
      (e.1, e.2.take 0x18 ++ [e.2.getD 0x18 0 ||| BitVec.ofNat 8 flags] ++ e.2.drop 0x19)
    else e
  { s with vol := { s.vol with dumps := s.vol.dumps.map f } }

/-- A boundary (R621, R622, R625): every counter is latched and restarts, the statistics are latched, the record is dumped. -/
def State.boundary (s : State) (flags : Nat) (tbEnd : Word) : State :=
  if s.live.tallySeq ≠ 0 ∧ s.live.time = s.live.tallyStart then s.boundaryAgain flags
  else
    let d := s.tallyRecord flags tbEnd
    let ovf := s.live.tally.any (fun e => bit e.2 48 && s.counterExists e.1)
    let s : State := { s with live := { s.live with tally := [], changed := [], xlatched := s.live.stats, tallyStart := s.live.time,
                                                    tallySeq := s.live.tallySeq + 1 } }
    let s := if ovf then s.setRegF (offTally + 8) 2 2 1 else s
    if s.ringValid then s.dumpAdd d else s.raise 132

/-! ## Rows -/

/-- WATCH_BOUNDARY (R621). -/
def execWatchBoundary (s : State) : Out := .next (if s.pwr.phase = .running then s.boundary 0 s.live.time else s)

/-- SNAP (R621, R634). -/
def execSnap (src : Src) (s : State) : Out :=
  .next (if s.srcKeel src ∧ s.pwr.phase = .running then s.boundary 1 s.live.time else s)

/-- A write of WATCH_US, with SNAP where `snap` (R621, R634). -/
def State.watchUs (s : State) (v : Nat) (snap : Bool) : State :=
  let s := s.setReg offTally (field 23 0 (clampWatch v))
  s.boundary (2 + b2n snap) s.live.time

/-- A write of TALLY_CTL: with SNAP, WATCH_US counts as written where its value changes (DESIGN CHOICE, log 24). -/
def State.tallyCtl (s : State) (v : Word) : State :=
  if s.pwr.phase ≠ .running then s
  else if bit v 32 ∧ clampWatch (bits v 23 0) = s.regF offTally 23 0 then s.boundary 1 s.live.time
  else s.watchUs (bits v 23 0) (bit v 32)

/-- WATCH_US_WRITE (R621, R634). -/
def execWatchUsWrite (src : Src) (v : BitVec 24) (s : State) : Out :=
  .next (if s.srcKeel src ∧ s.pwr.phase = .running then s.watchUs v.toNat false else s)

/-- A record is complete (R628 step 3): HEAD advances, TALLY_PERIOD is raised, a record that waited begins. -/
def State.dumpDone (s : State) (d : List Byte) (r : List (Nat × List Byte)) : State :=
  let s : State := { s with vol := { s.vol with dumps := r, skipped := 0, dumpSent := false } }
  let s := (s.setRegF (offTally + 0x20) 63 16 (leNat (d.take 8))).ringNext
  (s.raise 132).dumpStart

/-- DUMP_COMPLETE (R304, R628 steps 2 and 3, R629): the record's other lines and its SEQUENCE are written; once their homes have accepted
them the record is complete. -/
def execDumpComplete (s : State) : Out :=
  .next (
    if s.pwr.phase ≠ .running then s
    else match s.vol.dumps with
    | [] => s
    | (base, d) :: r =>
      if s.vol.dumpSent then (if s.accepted (2 ^ 22) then s.dumpDone d r else s)
      else
      let ls := (if base % 2 = 1 then [zeroLine base d] else []) ++ ((List.range 31).map (fun i => (base / 256 + i + 1, (d.drop (256 * (i + 1))).take 256))) ++ [(base / 256, d.take 256)]
      match writeRecordLines s ls with
      | .wait => s
      | .bus s => s.dumpFailed.dumpStart
      | .ok _ s1 =>
        let s := s.noteHeld s1 (2 ^ 22)
        if s.accepted (2 ^ 22) then s.dumpDone d r else { s with vol := { s.vol with dumpSent := true } })

/-- A write of TALLY_SEL_i (R620, R623, R637). -/
def State.tallySel (s : State) (i : Nat) (v : Word) : State :=
  if ¬ s.counterExists i then s
  else
    let s := s.setReg (offTally + 0x1000 + 8 * i) (BitVec.ofNat 64 (clampSel i v.toNat))
    { s with live := { s.live with changed := s.live.changed.put i true false } }

/-- TALLY_SEL_WRITE (R620, R623, R637). -/
def execTallySelWrite (src : Src) (i : Fin 800) (v : Word) (s : State) : Out :=
  .next (if s.srcMay src 1 then s.tallySel i.val v else s)

/-- A write of TALLY_RING_BASE or TALLY_RING_COUNT, which resets HEAD (R636). -/
def State.tallyRing (s : State) (count : Bool) (v : Word) : State :=
  let s := if count then s.setReg (offTally + 0x18) (field 16 0 (clampRingCount (bits v 16 0)))
    else s.setReg (offTally + 0x10) (v &&& (msk 0 0 ||| msk 51 13))
  s.setRegF (offTally + 0x20) 15 0 0

/-- TALLY_RING_WRITE (R636). -/
def execTallyRingWrite (src : Src) (count : Bool) (v : Word) (s : State) : Out :=
  .next (if s.srcKeel src then s.tallyRing count v else s)

/-- SAMPLE_CARRY (R630, R631): the source of a counter that carried is raised. -/
def execSampleCarry (lp : LpId) (k : Fin 8) (s : State) : Out :=
  .next (
    if ¬ s.vol.sampleDue.contains (lp.val, k.val) then s
    else
      let s : State := { s with vol := { s.vol with sampleDue := s.vol.sampleDue.erase (lp.val, k.val) } }
      let n := s.regF (offTally + 0x1000 + 8 * (8 * lp.val + k.val)) 27 16
      if n < 512 then s else s.raise n)

end Sys2Proof.Machine
end

