-- ==== Sys2Proof/Machine/Start.lean ====
section
/-! DEFINITION. Power, landings' ends and starts: what the power pins do (R647), the decision of a start (R381, R392), the cold
start (R606, R607), the resume (R382 to R390) and harbour mode (R608). -/

namespace Sys2Proof.Machine

/-! ## The end of a landing -/

/-- OUTPUTS_QUIESCED (R364, R365, R366): engine steps are abandoned, Florix sends its landing notices, posted device stores not
complete are dropped and deferred. -/
def execOutputsQuiesced (s : State) : Out :=
  .next (
    if s.pwr.phase ≠ .landing ∨ s.pwr.land.quiesced then s
    else
      let s := s.enginesLand.flxNotices
      let s := s.lpsAll.foldl (fun s n =>
        let s := (s.lpv n).posted.foldl (fun s d => (s.defer n d.level d.addr d.finfo).countAbandoned n) s
        s.setLpv n { s.lpv n with posted := [] }) s
      s.withLand (fun l => { l with quiesced := true }))

/-- The checks the expanders hold once the check cache is lost: a line whose new check still waited has its old one (R337). -/
def Mem.lostChecks (m : Mem) : Map (Option (BitVec 32)) :=
  m.ckOld.foldl (fun c e => match e.2 with
    | some w => c.put e.1
        (if w = tileCheck (e.1 % 2 ^ 32 * 256) (m.media.bytes (e.1 * 256) 256) then none else some w) none
    | none => c) m.checks

/-- The main domain stops (R647): memory holds what the expanders hold, and everything in flight is gone. -/
def State.powerLoss (s : State) : State :=
  let m := s.mem
  { s with mem := { m with cur := m.media, poison := m.mpoison, checks := m.lostChecks, ckOld := [], ckAge := [] },
           vol := Vol.reset, pwr := { s.pwr with lpsOn := false } }

/-- The recovery counter, mirrored in MOD_STATUS (R565). -/
def State.setRecovery (s : State) (n : Nat) : State := (s.setRegF (offFc + 0x10) 15 0 n).setRegF 0x18 31 16 n

/-- A pulse of MODRST_N in HOLD clears COUNT and STUCK (R566). -/
def State.clearRecovery (s : State) : State :=
  if s.powerState = 4 then (s.setRecovery 0).setRegF (offFc + 0x10) 16 16 0 else s

/-! ## Step 1: the RTU -/

/-- A start stops in HOLD (R547, R567), its debug level CLOSED. -/
def State.startHoldFor (s : State) (reason : Nat) : State :=
  (((s.setFaultHold true).setPhase .startHold).setPower 4 |>.setRegF 0x18 6 5 0).setRegF (offFc + 0x10) 19 17 reason

/-- A combination that cannot occur (R546): the fuses of OTP disagree on RETIRED, or a sealed record holds an open debug level. -/
def State.stateBad (s : State) : Bool :=
  decide (s.nv.otp.retired ≠ decide (s.nv.otp.cycle = 3)) ||
    [s.nv.slotA, s.nv.slotB].any (fun x => match x.st, x.image with
      | .sealed, some im => decide (bits (im.regs.get 0x18 0) 6 5 ≠ 0)
      | _, _ => false)

/-- The OTP after a pending life-cycle request: 1 PROVISION, 2 DEPLOY, 3 RETIRE (R540). -/
def Otp.change (o : Otp) (pend : Nat) (anchor : List Byte) : Otp :=
  { o with
    life := if pend = 1 then o.life ||| 1 else if pend = 2 then o.life ||| 2 else if pend = 3 then o.life ||| 4 else o.life
    owner := if pend = 1 then anchor else o.owner
    retired := o.retired || decide (pend = 3)
    epoch := o.epoch + 1 }

/-- The pending requests are carried out before the image is read (R534, R536, R537, R540, R544). -/
def State.carryOut (s : State) : State :=
  let c := s.nv.cfg
  let otp := match c.svnPending with
    | some f => { s.nv.otp with floors := s.nv.otp.floors.zipWith max f }
    | none => s.nv.otp
  let s : State := { s with nv := { s.nv with otp := otp } }.withCfg (fun c => { c with svnPending := none })
  let s := (s.setRegF offRtu 7 7 0).setRegF 0x18 6 5 0
  if c.lcPending = 0 ∧ ¬ c.fullPending then s
  else
    let held := s.epochHeld
    let s := s.withCfg (fun c => { c with lcPending := 0, lcAnchor := [], fullPending := false })
    if held then s.setRegF offRtu 7 7 1
    else
      let s : State := { s with nv := { s.nv with otp := otp.change c.lcPending c.lcAnchor }, pwr := { s.pwr with epochRaised := true } }
      let s : State := if c.lcPending = 4 then s.withCfg (fun c => { c with retired := 0 }) else s
      if c.fullPending then s.setDebug 2 else s

/-- The RTU is ready (R541, R547, R551 to R553): the mailbox is free, the nonce is fresh, the start is counted. -/
def State.rtuReady (s : State) (nonce : BitVec 128) (dropped : Nat) : State :=
  let s := s.clearRtuBuf
  let s := s.setReg offRtu (field 0 0 1 ||| field 7 7 dropped)
  let s := (s.setReg (offRtu + 8) 0).setReg (offRtu + 0x18) 0
  let s := (s.setReg (offRtu + 0x20) (nonce.truncate 64)).setReg (offRtu + 0x28) ((nonce >>> 64).truncate 64)
  s.setRegF (offRtu + 0x30) 63 32 (min (s.regF (offRtu + 0x30) 63 32 + 1) 0xFFFFFFFF)

/-! ## Step 2: the decision -/

/-- The image in a flash slot; `true` is B. -/
def flashSlot (f : Flash) (b : Bool) : Option Image := if b then f.b else f.a

/-- A slot that reads OPEN or SEALED. -/
def Slot.live (x : Slot) : Bool := decide (x.st = .opened ∨ x.st = .sealed)

/-- The newest slot that reads OPEN or SEALED. -/
def Nv.newest (n : Nv) : Option Bool :=
  if n.slotA.live ∧ n.slotB.live then some (decide (n.slotA.seq.toNat < n.slotB.seq.toNat))
  else if n.slotA.live then some false else if n.slotB.live then some true else none

/-- CFG_SLOT_A or CFG_SLOT_B (R614). -/
def State.cfgSlot (s : State) (b : Bool) (result sec gen : Nat) : State :=
  s.setReg (offCfg + (if b then 0x20 else 0x18)) (field 3 0 result ||| field 15 8 sec ||| field 63 16 gen)

/-- GENERATION of a flash slot, 0 where it cannot be read. -/
def slotGen (f : Flash) (b : Bool) : Nat := match flashSlot f b with | some i => i.generation.toNat | none => 0

/-- Whether the image of a recorded slot is the landed one (R381): the code of CFG_SLOT and its section. -/
def State.imageMatches (s : State) (si : StartInput) (b : Bool) (x : Slot) : Nat × Nat :=
  match slotCheck s.nv.otp (flashSlot si.flash b) with
  | (0, _) => match flashSlot si.flash b with
    | some i => if imageDigestOf i = x.digest then (0, 0) else (8, 0)
    | none => (7, 0)
  | r => r

/-- Whether a line of a slot's record or of its LP and block areas fails its tag (R375, R392). -/
def State.slotBad (s : State) (b : Bool) : Bool :=
  s.nv.lsBad.any (fun e => e.2 && decide (slotBase b ≤ e.1 * 256 ∧ e.1 * 256 < slotBase b + strayIdxOff))

/-- COLD_REASON of a start, 0 where it resumes, and the landing slot it found (R376, R381, R392).  An epoch that rose at this
start comes before MODRST_N and a failed stack (DEDUCED, log 22). -/
def State.coldReason (s : State) (si : StartInput) : Nat × Option Bool :=
  let n := s.nv.newest
  if s.pwr.epochRaised ∧ s.nv.cfg.landed then (4, n)
  else if s.pwr.stackHold then (7, n)
  else if s.pwr.rst then (6, n)
  else match n with
    | none => (1, none)
    | some b =>
      let x := s.nv.slotOf b
      if x.st = .opened then (2, n)
      else if x.seq ≠ s.nv.cfg.seq ∨ ¬ si.sealOk ∨ x.image.isNone ∨ s.slotBad b then (3, n)
      else if s.nv.cfg.sealEpoch ≠ s.nv.otp.epoch ∨ x.epoch ≠ s.nv.otp.epoch then (4, n)
      else if bits x.ident 14 0 ≠ bits s.identity 14 0 then (5, n)
      else if (s.imageMatches si (bit x.ident 15) x).1 ≠ 0 then (5, n)
      else (0, n)

/-- The outcome for the slot a landing names, where its image is not the landed one and the start is cold for it (R586, R614). -/
def State.recordedSlot (s : State) (si : StartInput) (n : Option Bool) : State :=
  match n with
  | none => s
  | some b =>
    let x := s.nv.slotOf b
    let ib := bit x.ident 15
    let r := s.imageMatches si ib x
    if r.1 = 0 ∨ bits x.ident 14 0 ≠ bits s.identity 14 0 then s else s.cfgSlot ib r.1 r.2 (slotGen si.flash ib)

/-! ## The image -/

/-- CFG_STATUS and MOD_STATUS.IMAGE_SLOT describe the image in use (R41, R611). -/
def State.setImage (s : State) (b : Bool) (i : Image) : State :=
  let secs := (i.sections.map (fun x => 2 ^ (x.type.toNat - 1))).sum
  let s : State := { s with pwr := { s.pwr with imgB := b } }.setRegF 0x18 12 12 (b2n b)
  s.setReg offCfg ((s.reg offCfg &&& msk 14 14) ||| field 3 0 i.major.toNat ||| field 11 4 i.minor.toNat ||| field 12 12 (b2n b) |||
    field 26 16 secs)

/-- The slots in the order of R586, without those already tried. -/
def slotOrder (f : Flash) (tried : List Bool) : List Bool :=
  (if slotGen f false < slotGen f true then [true, false] else [false, true]).filter (fun b => !tried.contains b)

/-- The first slot whose header and sections are accepted (R586); the others' outcomes are recorded (R614). -/
def State.chooseSlot (s : State) (si : StartInput) : List Bool → State × Option (Bool × Image)
  | [] => (s, none)
  | b :: r =>
    let (res, sec) := slotCheck s.nv.otp (flashSlot si.flash b)
    let s : State := { s with pwr := { s.pwr with tried := b :: s.pwr.tried } }.cfgSlot b res sec (slotGen si.flash b)
    match flashSlot si.flash b with
    | some i => if res = 0 then (s, some (b, i)) else s.chooseSlot si r
    | none => s.chooseSlot si r

/-- The next slot is taken and its sections are clamped, reported and loaded, or no slot remains (R587, R592, R606 steps 2 and 4). -/
def State.nextSlot (s : State) (si : StartInput) : State :=
  match s.chooseSlot si (slotOrder si.flash s.pwr.tried) with
  | (s, none) => (({ s with vol := { s.vol with store := [] } }.setReport []).setPhase .noImage |>.setReg offCfg (field 13 13 1)).setRegF 0x18 12 12 0
  | (s, some (b, i)) =>
    let s := s.setImage b i
    let o := (s.readImage i false).2
    (s.setReport o.report).loadStores o

/-! ## Step 3: tests and bindings -/

/-- The default spare twins in the order of R228. -/
def spareOrder : List Nat :=
  let l := [15, 11, 7, 3, 14, 10, 6, 2, 13, 9, 5, 1, 12, 8, 4, 0]
  l.map (fun c => 4 * c + 3) ++ l.map (fun c => 4 * c + 2)

/-- Whether a twin may be bound: it passed its self-test and is not retired (R228, R231). -/
def State.twinGood (s : State) (good : BitVec 64) (t : Nat) : Bool := good.getLsbD t && !s.nv.cfg.retired.getLsbD t

/-- The twins bound at a cold start, by LP (R228). -/
def State.bindingOrder (s : State) (good : BitVec 64) : List (Fin 64) :=
  let spare := spareOrder.take (64 - s.lpCount)
  let ok := (List.finRange 64).filter (fun t => s.twinGood good t.val)
  ok.filter (fun t => !spare.contains t.val) ++ ok.filter (fun t => spare.contains t.val)

/-- A twin that fails its self-test enters the retire map and is reported (R231, R554 class 3). -/
def State.selfTest (s : State) (good : BitVec 64) : State :=
  ((List.range 64).filter (fun t => !good.getLsbD t && !s.nv.cfg.retired.getLsbD t)).foldl
    (fun s t => (s.retireTwin t).report (0xC0 + t)) s

/-- The LPs are bound afresh, or too few twins are good (R228, R229). -/
def State.bindAll (s : State) (good : BitVec 64) : State :=
  let s := s.selfTest good
  let l := s.bindingOrder good
  if l.length < s.lpCount then s.startHoldFor 2
  else s.lpsAll.foldl (fun s n => s.setLp n (Lp.fresh (l.getD n.val n))) s

/-- At a resume an LP whose twin is bad takes a spare in the order of step 2 of R223 (R382 step 5); RELOCATED follows (R391). -/
def State.rebindOne (s : State) (good : BitVec 64) (n : LpId) : State :=
  let t := (s.lp n).twin
  if s.pwr.phase ≠ .training ∨ s.twinGood good t.val then s
  else match s.chooseSpare t with
    | none => s.startHoldFor 2
    | some x => s.moveTwin n x

/-! ## Step 5: training -/

/-- The links of a root port that BIFURCATE presents (R446, R597).  DESIGN CHOICE (log 20): the lowest-numbered ones. -/
def linksOf (v : Nat) : Nat := if v = 0 then 1 else if v = 1 then 2 else 4

/-- The bits of MOD_PRESENT of the landing store's stacks follow their self-tests (R40, R42). -/
def State.presentStacks (s : State) (good : Nat) : State :=
  (List.range 4).foldl (fun s k => s.present (28 + k) (good.testBit k)) s

/-- Every port and link begins training (R320, R275, R446, R650): its bit of MOD_PRESENT reads 0 and its PERST line is released, that
of an UNUSED link excepted. -/
def State.trainAll (s : State) (good : Nat) : State :=
  let s := ((List.range 28).foldl (fun s b => s.present b false) s).presentStacks good
  let s := (List.range 16).foldl (fun s p =>
    let s := ((s.setRegF (offPm p) 2 0 1).setRegF (offPm p) 6 4 0).setPerstCxl p false
    s.setRegF (offPm p + 0x40) 16 0 (s.nv.parks.get p []).length) s
  let s := (List.range 16).foldl (fun s l =>
    let used := decide (l % 4 < linksOf (s.live.plan.get (0x0701 * 65536 + l / 4) 0))
    (s.setReg (offPl l) ((s.reg (offPl l) &&& msk 31 16) ||| field 2 0 (if used then 2 else 0))).setPerstPcie l (!used)) s
  let s := (List.range 4).foldl (fun s l => s.setReg (offLink l) 1) s
  s.setReg (offCwy + 0x40) (field 7 0 (2 ^ s.pwr.modid.val))

/-- Florix training begins (R459, R490, R598, R606). -/
def State.trainFlorix (s : State) : State :=
  (List.range 16).foldl (fun s l =>
    let c := s.reg (offFlx (l / 4))
    s.setRegF (offFl l) 2 0 (
      if linksOf (bits c 2 1) ≤ l % 4 then 0
      else if ¬ bit c 0 ∨ s.reg (offFl l + 8) = 0 then 1 else 2)) s

/-! ## Starts -/

/-- The cold start after its reason is known (R21, R392, R438, R573, R606 steps 2 to 4). -/
def State.coldBegin (s : State) (si : StartInput) (reason : Nat) : State :=
  let count := s.regF (offFc + 0x10) 15 0
  let mst := s.reg 0x18
  let std := { s.std with fc := [(0x18, mst)], logSince := 0, starts := [], fenced := [], readmits := [], injected := [], reload := false,
                          policy := false }
  let s : State := { s with std := std }.setRecovery (if s.pwr.auto then count else 0)
  let s : State := if s.pwr.epochRaised ∨ reason = 4 then
      { s with nv := { s.nv with slotA := Slot.blank, slotB := Slot.blank, journal := [], carried := [] } }
    else s
  let s : State := { s with nv := { s.nv with resumed := none },
                            pwr := { s.pwr with cold := reason, rst := false, stackHold := false, auto := false } }
  let s := s.setRegF 0x18 10 10 0
  let s := s.nextSlot si
  if s.pwr.phase = .training then (s.bindAll si.goodTwins).trainAll si.stacksOk.toNat else s

/-- A resume up to its training (R381, R382 steps 1 to 3): the landed state is taken from the slot. -/
def State.resumeBegin (s : State) (si : StartInput) (b : Bool) : State :=
  let x := s.nv.slotOf b
  let ib := bit x.ident 15
  match x.image, flashSlot si.flash ib with
  | some im, some i =>
    let rtu := s.regF offRtu 7 7
    let s : State := { s with live := { im with time := s.live.time }, std := { s.std with landed := true },
                              pwr := { s.pwr with resume := true, cold := 0, rst := false, stackHold := false, auto := false } }
    let s := (s.rtuReady si.nonce rtu).setRegF 0x18 8 8 1
    let s := s.setRegF offLand 9 9 (b2n x.pwrgoodLow)
    let s := (s.setImage ib i).cfgSlot ib 0 0 i.generation.toNat
    let s := s.cfgSlot (!ib) 1 0 0
    let o := (s.readImage i false).2
    let s := ((s.setReport o.report).loadStores o).selfTest si.goodTwins
    let s : State := { s with std := { s.std with fenced := s.std.fenced.filter (fun f =>
              decide (f.1 ≠ .port ∧ f.1 ≠ .cwy ∧ f.1 ≠ .pcie ∧ f.1 ≠ .flx)) } }
    (s.lpsAll.foldl (fun s n => s.rebindOne si.goodTwins n) s).trainAll si.stacksOk.toNat
  | _, _ => s

/-- The PMBus side of a die; its regulators power up at 0.85 V (R641). -/
def Rail.up : Rail := ⟨850, 850, true, false⟩

/-- The regulators are probed (R641): a die whose regulators report another VOUT_MODE than ULINEAR16 is reported. -/
def State.probeRails (s : State) (ulinear : BitVec 4) : State :=
  (List.range 4).foldl (fun (s : State) d =>
    let u := ulinear.getLsbD d
    let s : State := { s with pwr := { s.pwr with rails := s.pwr.rails.put d { s.pwr.rails.get d Rail.up with ulinear := u } Rail.up } }
    if u then s else s.report 0x214) s

/-- A start begins (R41, R43, R381, R606, R650): the main domain is reset, the timebase goes on or reads the mark, the pending fuses are programmed, the start HOLDs are tested, and a
landed image is resumed or the start is a cold one. -/
def State.beginStart (s : State) (si : StartInput) : State :=
  let s := s.powerLoss
  let live := { Live.reset with time := if s.pwr.unbroken then s.live.time else s.nv.cfg.tbMark.getD 0
                                regs := s.live.regs.filter (fun e => decide (e.1 = offLand + 0x10)) }
  let s : State := { s with live := live, pwr := { s.pwr with
            phase := .training, si := some si, resume := false, tried := [], startAt := s.std.clock, epochRaised := false, poisoned := false,
            replayed := 0, due := false, land := Landing.none, overRow := 0, readings := false } }
  let s := ((((s.setPower 3).setRegF 0x18 8 7 1).setRegF 0x18 12 11 0).setRegF (offFc + 0x10) 19 17 0).assertPerst.probeRails si.ulinear
  if 4 ≤ s.pwr.part.toNat then s.startHoldFor 1
  else if ¬ si.otpOk then s.startHoldFor 4
  else
    let s := s.carryOut
    let s := s.rtuReady si.nonce (s.regF offRtu 7 7)
    if s.stateBad then s.startHoldFor 6
    else if s.nv.otp.retired then s.startHoldFor 5
    else
      let s := s.presentStacks si.stacksOk.toNat
      if si.stacksOk ≠ 15 then s.startHoldFor 3
      else
        let (reason, n) := s.coldReason si
        let s : State := match n with
          | some b => if (s.nv.slotOf b).st = .sealed then
              (s.writeSlot b 0x20 0x28 { s.nv.slotOf b with pwrgoodLow := !s.pwr.unbroken }).setRegF offLand 9 9 (b2n (!s.pwr.unbroken))
            else s
          | none => s
        match reason, n with
        | 0, some b => s.resumeBegin si b
        | 5, _ => (s.recordedSlot si n).coldBegin si 5
        | r, _ => s.coldBegin si r

/-- A start begins where PWRGOOD and MODRST_N allow it, at once or when PWRFAIL_N has been high for 1 ms (R381, R647). -/
def State.startNow (s : State) (si : StartInput) : State :=
  if ¬ s.std.standby ∨ ¬ s.std.pwrgood ∨ s.std.modrst then s
  else if s.std.pwrfail then s.setPhase .waiting
  else s.beginStart si

/-! ## Time (R387 to R389) -/

/-- E and M of R387 and R389 in ns. -/
def State.elapsed (s : State) : Nat :=
  let e := s.reg (offLand + 0x10)
  (if bit e 63 then bits e 39 0 * 1000000 else 0) + (s.std.clock - s.pwr.upSince)

/-- The timebase mark is written (R389). -/
def State.markTime (s : State) : State := s.withCfg (fun c => { c with tbMark := some s.live.time })

/-- The timebase at the end of a start, from `base` where its counting was broken; `stale` says when TOD_STALE then reads 1.  It never
steps back (R43). -/
def State.setTime (s : State) (base : Option Word) (stale : Bool) : State :=
  let s : State := if s.pwr.unbroken then s.setRegF 0x18 9 9 0
    else
      let t : Word := match base with
        | some b => b + BitVec.ofNat 64 s.elapsed
        | none => 0
      let t := if s.live.time < t then t else s.live.time
      { s with live := { s.live with time := t } }.setRegF 0x18 9 9 (b2n stale)
  { s with pwr := { s.pwr with unbroken := true } }.setRegF (offLand + 0x10) 63 63 0 |>.markTime

/-! ## The power pins (R644 to R647) -/

/-- PWRGOOD_RISE (R30, R381, R647): MODID is sampled and a start begins. -/
def execPwrgoodRise (modid : Fin 8) (si : StartInput) (s : State) : Out :=
  .next (
    if ¬ s.std.standby ∨ s.std.pwrgood then s
    else
      let s : State := { s with std := { s.std with pwrgood := true },
                                pwr := { s.pwr with modid := modid, upSince := s.std.clock, endpoints := true, auto := false,
                                                    rails := [], lanes := [] } }
      (s.setReg (offLand + 0x10) 0).startNow si)

/-- POWER_STATE with the main rails off (R41): a sealed image waits, or not. -/
def State.powerOff (s : State) : State :=
  let sealed : Bool := match s.nv.newest with | some b => decide ((s.nv.slotOf b).st = .sealed) | none => false
  if sealed ∧ s.pwr.phase ≠ .running ∧ s.pwr.phase ≠ .landing then
    (s.setPhase .landed).setPower (if s.std.faultHold then 4 else 2)
  else (s.setPhase .off).setPower 5

/-- A line of a stack's part of the landing slot, whose write may have been cut short, fails its tag (R373, R375): which, and whether any,
is free. -/
def State.cutLine (s : State) (st : Nat) : State :=
  let n := Config.freeNat s.free % 0x600000
  let k := slotBase s.landSlot / 256 + (4 * (n / 16) + st) * 16 + n % 16
  let s1 := s.tick1
  if Config.freeBool s1.free then { s1 with nv := { s1.nv with lsBad := s1.nv.lsBad.put k true false } }.tick1 else s1.tick1

/-- Every island stops at once (R370, R375, R647, R651): what a landing wrote so far stays in its unsealed slot, lines whose writes
were cut short excepted. -/
def State.islandsStop (s : State) : State :=
  let s : State := if s.pwr.phase = .landing then
      (List.range 4).foldl State.cutLine
        (s.setSlot s.landSlot { s.nv.slotOf s.landSlot with strays := s.pwr.land.strays })
    else s
  s.powerOff.powerLoss

/-- PWRGOOD falls (R41, R370, R647): in RUN nothing lands, a landing stays unsealed, a sealed one waits. -/
def State.pwrgoodFall (s : State) : State :=
  let s : State := { s with std := { s.std with pwrgood := false, thermtrip := false },
                            pwr := { s.pwr with unbroken := false, endpoints := true, due := false } }
  s.islandsStop

/-- PWRGOOD_FALL (R41, R370, R647). -/
def execPwrgoodFall (s : State) : Out := .next (if s.std.pwrgood then s.pwrgoodFall else s)

/-- MODRST_ASSERT (R362, R392, R606, R647): in RUN the state is lost; a start stops; a landing goes on. -/
def execModrstAssert (s : State) : Out :=
  .next (
    if ¬ s.std.standby ∨ s.std.modrst then s
    else
      let s : State := { s with std := { s.std with modrst := true } }
      if ¬ s.std.pwrgood then s
      else
        let s : State := { s with pwr := { s.pwr with endpoints := true, auto := false } }
        match s.pwr.phase with
        | .running => { s with pwr := { s.pwr with rst := true, phase := .off } }.powerLoss.setPower 3
        | .training => if s.pwr.resume then ((s.setPhase .landed).setPower 2).powerLoss else (s.setPhase .off).powerLoss
        | .noImage => (s.setPhase .off).powerLoss
        | .waiting => s.setPhase .off
        | _ => s)

/-- MODRST_RELEASE (R362, R363, R566, R606): a start begins; during a landing it waits for the seal. -/
def execModrstRelease (si : StartInput) (s : State) : Out :=
  .next (
    if ¬ s.std.modrst then s
    else
      let s : State := { s with std := { s.std with modrst := false } }
      if ¬ s.std.pwrgood then s
      else if s.pwr.phase = .landing then { s with pwr := { s.pwr with due := true, si := some si } }
      else s.clearRecovery.startNow si)

/-- PWRFAIL_HIGH_WAIT (R606, R647): PWRFAIL_N has been high for 1 ms. -/
def execPwrfailHighWait (si : StartInput) (s : State) : Out :=
  .next (if s.pwr.phase = .waiting ∧ ¬ s.std.pwrfail then s.startNow si else s)

/-- WARM_RETURN_EXPIRY (R363, R600). -/
def execWarmReturnExpiry (si : StartInput) (s : State) : Out :=
  .next (
    if s.pwr.phase ≠ .landed ∨ s.nv.cfg.cause ≠ 1 ∨ s.planF 0x0A01 100 = 0 ∨ s.std.pwrfail then s
    else s.startNow si)

/-- HOLD_QUIET_EXPIRY (R565): the module leaves HOLD by itself, up to RECOVERY_MAX times. -/
def execHoldQuietExpiry (si : StartInput) (s : State) : Out :=
  .next (
    let rcv := offFc + 0x10
    if ¬ s.std.faultHold ∨ ¬ s.std.pwrgood ∨ s.std.modrst ∨ (s.pwr.phase ≠ .landed ∧ s.pwr.phase ≠ .unsealed) ∨
       bit (s.reg rcv) 16 then s
    else if s.regF rcv 15 0 < s.regF (offFc + 8) 23 16 then
      let s := s.setRecovery (s.regF rcv 15 0 + 1)
      { s with pwr := { s.pwr with auto := decide (s.pwr.phase = Phase.unsealed) } }.startNow si
    else (s.setRegF rcv 16 16 1).setRegF rcv 19 17 7)

/-- LANDING_SEALED (R362, R364 step 7, R374): the slot is sealed once every stack has acknowledged it, or the landing ends
unsealed; a MODRST_N pulse that fell in it takes effect now. -/
def execLandingSealed (s : State) : Out :=
  .next (
    let l := s.pwr.land
    if s.pwr.phase ≠ .landing ∨ ¬ l.complete ∨ (¬ l.badStack ∧ l.acks ≠ 0) then s
    else
      let s := (if l.badStack then s.endUnsealed else s.sealLanding).powerLoss
      match s.pwr.due, s.pwr.si with
      | true, some si => s.clearRecovery.startNow si
      | _, _ => s)

/-- A write of LAND_ELAPSED (R388, R397): between PWRGOOD rising and step 5 of a start. -/
def State.landElapsed (s : State) (v : Word) : State :=
  if s.std.pwrgood ∧ (s.pwr.phase = .waiting ∨ s.pwr.phase = .off ∨ s.pwr.phase = .training) then
    s.setReg (offLand + 0x10) (v &&& (msk 39 0 ||| msk 63 63))
  else s

/-- LAND_ELAPSED_WRITE (R388, R397). -/
def execLandElapsedWrite (v : Word) (s : State) : Out := .next (s.landElapsed v)

/-- TIMEBASE_MARK (R389). -/
def execTimebaseMark (s : State) : Out := .next (if s.pwr.phase = .running then s.markTime else s)

/-- FLASH_READ_TIMEOUT (R381, R585, R586): the slot in use fails with FLASH; a resume becomes a cold start. -/
def execFlashReadTimeout (slot : Bool) (s : State) : Out :=
  .next (
    match s.pwr.si with
    | none => s
    | some si =>
      if s.pwr.phase ≠ .training then s
      else
        let f := si.flash
        let si := { si with flash := if slot then { f with b := none } else { f with a := none } }
        let s : State := { s with pwr := { s.pwr with si := some si } }
        if s.pwr.imgB ≠ slot then s
        else if s.pwr.resume then
          let dropped := s.regF offRtu 7 7
          let s := s.powerLoss.setRegF 0x18 8 8 0
          let keep := s.live.regs.filter (fun e => decide (e.1 = offLand + 0x10))
          let s : State := { s with live := { Live.reset with time := s.live.time, regs := keep }, pwr := { s.pwr with resume := false } }
          (((s.rtuReady si.nonce dropped).cfgSlot slot 7 0 0).coldBegin si 5)
        else (s.cfgSlot slot 7 0 0).nextSlot si)

/-! ## Step 6 of a cold start -/

/-- The keel header and code of an image (R592): LOAD_ADDR, ENTRY, STACK_ADDR, STACK_BYTES, the zero bytes, the code. -/
structure Keel where
  load : Nat
  entry : Nat
  stack : Nat
  bytes : Nat
  zero : List Byte
  code : List Byte

/-- The keelcode of an image. -/
def keelOf (i : Image) : Keel :=
  let b := match sectionOf i 1 with | some x => x.body | none => []
  ⟨leNat (b.take 8), leNat ((b.drop 8).take 8), leNat ((b.drop 16).take 8), leNat ((b.drop 24).take 8), (b.drop 32).take 32,
   b.drop 64⟩

/-- The code length padded to 4 KiB. -/
def Keel.padded (k : Keel) : Nat := (k.code.length + 4095) / 4096 * 4096

/-- Whether keelcode passes R592. -/
def State.keelOk (s : State) (sets : List MSet) (k : Keel) : Bool :=
  let n := s.lpCount * k.bytes
  k.zero.length == 32 && k.zero.all (· == 0) &&
  decide (k.load % 4096 = 0 ∧ k.entry % 4 = 0 ∧ k.entry < k.code.length) && s.mappedHere sets k.load k.padded &&
  decide (k.stack % 4096 = 0 ∧ k.bytes % 4096 = 0 ∧ 4096 ≤ k.bytes) && s.mappedDeck sets k.stack n &&
  !zOverlap (k.load, k.padded) (k.stack, n)

/-- A full line written by the start, with its check (R606). -/
def State.startLine (s : State) (ln : Nat) (data : List Byte) : State :=
  match s.lineRef ln with
  | none => s
  | some r =>
    { s with mem := { s.mem with cur := s.mem.cur.setBytes (r.key * 256) data, poison := s.mem.poison.put r.key false false } }.writeHome
      r false

/-- The code, padded with zeros, is written from LOAD_ADDR on. -/
def State.writeCode (s : State) (k : Keel) : State :=
  (List.range (k.padded / 256)).foldl (fun s i => s.startLine (k.load / 256 + i) (padTo 256 (k.code.drop (256 * i)))) s

/-- An LP as step 6 starts it (R607). -/
def Lp.started (l : Lp) (n : LpId) (k : Keel) : Lp :=
  let b0 : Bank := ⟨BitVec.ofNat 64 k.load ||| 0x1B, BitVec.ofNat 64 (k.code.length - 1)⟩
  let b14 : Bank := ⟨BitVec.ofNat 64 (k.stack + n.val * k.bytes) ||| 0x17, BitVec.ofNat 64 (k.bytes - 1)⟩
  let x := { Slip.zero with b := (Slip.zero.b.set 0 b0).set 14 b14, g := Slip.zero.g.set 31 (BitVec.ofNat 64 k.bytes),
                            pc := BitVec.ofNat 64 k.entry }
  { Lp.fresh l.twin with slips := (Lp.fresh l.twin).slips.set 0 x }

/-- Ports and links that did not train: a port without an expander is ABSENT, a causeway or PCIe link DOWN (log 22). -/
def State.endTraining (s : State) : State :=
  let s := (List.range 16).foldl (fun s p => if s.portState p = 1 then s.setRegF (offPm p) 2 0 0 else s) s
  let s := (List.range 16).foldl (fun s l => if s.regF (offPl l) 2 0 = 2 then s.setRegF (offPl l) 2 0 1 else s) s
  (List.range 4).foldl (fun s l => if s.linkState l = 1 then s.setRegF (offLink l) 2 0 0 else s) s

/-- The strays of an unsealed landing whose CHECK verifies are replayed (R393). -/
def State.replayOpen (s : State) : State :=
  if s.pwr.cold ≠ 2 then s
  else match s.nv.newest with
    | none => s
    | some b =>
      let x := s.nv.slotOf b
      let good := x.strays.zipIdx.filter (fun e =>
        (s.strayTags b e.2).1 && (s.strayTags b e.2).2 && decide (e.1.check = strayCheck e.1.line e.1.data))
      (s.replayStrays (good.map (·.1))).writeSlot b 8 16 { x with st := .empty }

/-- SVN + 1 of each section of an image by type (R534). -/
def svnsOf (i : Image) : Map Nat := i.sections.foldl (fun m x => m.put x.type.toNat (x.svn.toNat + 1) 0) []

/-- The module starts to run (R41, R564, R606 step 6). -/
def State.runNow (s : State) : State :=
  let s : State := { s with std := { s.std with landed := false, faultHold := false, policy := true },
                            pwr := { s.pwr with phase := .running, lpsOn := true, endpoints := false } }
  s.setPower 0

/-- Step 6 once the keelcode is accepted: registers, LPs, the channel, Florix, time and report (R389, R438, R605 to R607). -/
def State.coldRun (s : State) (i : Image) (c : PlanCtx) (o : PlanOut) (k : Keel) : State :=
  let s := ((s.writeCode k).applyPlans c o (sectionOf i 3).isSome).setUcStatus i o
  let s := s.lpsAll.foldl (fun s n => s.setLp n ((s.lp n).started n k)) s
  let s := s.channelCold.trainFlorix
  let s := s.setTime s.nv.cfg.tbMark true
  let s : State := { s with live := { s.live with digest := imageDigestOf i, measures := measurementsOf i,
                                                  svns := svnsOf i, tallyStart := s.live.time } }
  let s := (s.writeSlot false 8 16 { s.nv.slotA with st := .empty }).writeSlot true 8 16 { s.nv.slotB with st := .empty }
  (s.withCfg (fun c => { c with report := o.report })).runNow

/-- KEELCODE_LOAD (R592, R606 steps 5 and 6): the sets are mapped, strays replayed, the keelcode checked and loaded, and the
LPs start in harbour mode; or the slot fails with LOAD. -/
def execKeelcodeLoad (s : State) : Out :=
  .next (
    match s.pwr.si with
    | none => s
    | some si =>
      if s.pwr.phase ≠ .training ∨ s.pwr.resume then s
      else match flashSlot si.flash s.pwr.imgB with
        | none => s
        | some i =>
          let s := s.endTraining
          let (c, o) := s.readImage i true
          let s : State := { s with live := { s.live with sets := o.sets } }.setReport o.report
          let s := s.replayCarried.replayOpen
          let k := keelOf i
          if s.keelOk o.sets k then s.coldRun i c o k
          else
            let s : State := { s with live := { s.live with sets := [] } }.cfgSlot s.pwr.imgB 6 1 i.generation.toNat
            s.nextSlot si)

/-! ## Harbour mode (R608) -/

/-- The harbour-exit actions. -/
def State.harbourOut (s : State) : State :=
  let s := s.setRegF 0x18 7 7 0
  let s := s.chCtlWrite (setBits (s.reg offCh) 0 0 (s.planF 0x0705 1))
  s.openCrossings.setRegF offCfg 14 14 1

/-- A write of CFG_CTL (R608, R612). -/
def State.cfgCtl (s : State) (v : Word) : State :=
  if bit v 0 ∧ s.harbour ∧ s.pwr.phase = .running then s.harbourOut else s

/-- HARBOUR_EXIT (R608). -/
def execHarbourExit (src : Src) (s : State) : Out := .next (if s.srcKeel src then s.cfgCtl 1 else s)

/-! ## The commit of a resume -/

/-- A member of a mapped set that is not admitted is fenced from the commit point (R325). -/
def State.fenceUnadmitted (s : State) : State :=
  ((List.range 16).filter (fun p => s.live.sets.any (fun t => t.ports.contains p) && decide (s.portState p ≠ 2))).foldl
    (fun s p =>
      let s := s.fencePort p
      let s : State := { s with std := { s.std with fenced := s.std.fenced ++ [(UnitKind.port, p, 7)] } }
      s.fcLogFree (0x160 + p) 3) s

/-- A partition's resume record (R390). -/
def State.resumeRecord (s : State) (x : Slot) (p : Nat) : List Byte :=
  let t := s.live.time
  let flags := field 7 0 1 ||| field 8 8 (s.regF 0x18 9 9) ||| field 9 9 (bits x.cause 1 1) ||| field 10 10 (b2n s.pwr.endpoints) |||
    field 11 11 (b2n (!s.nv.carried.isEmpty)) ||| field 12 12 (b2n s.pwr.poisoned)
  wordBytes flags ++ wordBytes x.seq ++ wordBytes (x.tbSeal - x.tbTrigger) ++ wordBytes (t - x.tbTrigger) ++
    wordBytes x.tbTrigger ++ wordBytes (BitVec.ofNat 64 (x.abandoned.get p 0)) ++ List.replicate 16 0

/-- The resume records are written through the hub extents, and one whose address fails translation is skipped and reported
(R390, R604). -/
def State.writeRecord (s : State) (x : Slot) (p : Nat) : State :=
  let r := offCfg + 0x100 + 0x20 * p
  let a := (s.reg (r + 16)).toNat
  if ¬ bit (s.reg r) 0 ∨ a = 0 then s
  else match s.hubPieces p a 64 true with
    | none => s.addReport (entry 5 7 0x0504 p a 0)
    | some l => match (chWritePieces l (s.resumeRecord x p)).run s with
      | .ok _ s => s
      | .error _ s => s.addReport (entry 5 7 0x0504 p a 0)

/-- MOD_EVENT.LINK_CHANGE and its source compare MOD_PRESENT with its landed value (R42). -/
def State.presentSince (s : State) (im : Live) : State :=
  if s.reg 0x10 ≠ im.regs.get 0x10 0 then s
  else
    let evt := offEvt + 8 * 128
    (s.setRegF 0x20 3 3 (bits (im.regs.get 0x20 0) 3 3)).setRegF evt 1 1 (bits (im.regs.get evt (resetReg evt)) 1 1)

/-- The collector at a resume: a reload of R569, or the policy where the standby rails were lost (R573). -/
def State.fcResume (s : State) : State :=
  let s : State := if s.std.reload ∨ ¬ s.std.policy then s.fcPolicy s.live.plan else s
  if ¬ s.std.reload then s
  else
    let fc := s.std.fc.map (fun e =>
      if offFc + 0x8000 ≤ e.1 ∧ e.1 < offLand then (e.1, setBits e.2 7 0 0) else e)
    { s with std := { s.std with reload := false, starts := [], fc := fc.filter (fun e => decide (e.2 ≠ resetReg e.1)) } }

/-- Steps 4 to 7 of R382. -/
def State.commit (s : State) (b : Bool) (x : Slot) (im : Live) : State :=
  let s := s.replayCarried.replayStrays (s.slotStrays b x.strays)
  let s := (s.presentSince im).setTime (some x.tbSeal) (!bit (s.reg (offLand + 0x10)) 63)
  let s := (List.range 64).foldl (fun s p => s.writeRecord x p) s
  let s := s.writeSlot b 8 16 { x with st := .consumed }
  let s : State := { s with nv := { s.nv with resumed := some b }, live := { s.live with resumes := s.live.resumes + 1 } }
  let s := s.setRegF (offLand + 0x18) 63 32 ((s.std.clock - s.pwr.startAt) / 1000000)
  let s := s.lpsAll.foldl (fun s n =>
    s.setLp n { s.lp n with slips := (s.lp n).slips.map (fun y => { y with ss := false }) }) s
  let s := s.runNow.setRegF 0x18 10 10 (b2n (decide (s.live.unchecked ≠ 0)))
  let s := s.fcResume.fenceUnadmitted.trainFlorix
  let s := (s.channelResume.flxResume).boundary 4 x.tbTrigger
  let s : State := if bit (s.reg offCfg) 14 then s.setRegF 0x18 7 7 0 else s.harbourOut
  let s := s.raise 129
  if bit x.cause 1 then s.raise 133 else s

/-- RESUME_COMMIT (R382 steps 4 to 7, R385): the strays are replayed, the time is set, the records are written, the slot is
CONSUMED, and every LP goes on. -/
def execResumeCommit (s : State) : Out :=
  .next (
    if s.pwr.phase ≠ .training ∨ ¬ s.pwr.resume then s
    else match s.nv.newest, s.pwr.si with
      | some b, some si =>
        let x := s.nv.slotOf b
        match x.image, flashSlot si.flash s.pwr.imgB with
        | some im, some i =>
          let s := s.endTraining
          let o := (s.readImage i true).2
          let s := s.setReport o.report
          let s := s.commit b x im
          s.withCfg (fun c => { c with report := o.report })
        | _, _ => s
      | _, _ => s)

end Sys2Proof.Machine
end

