-- ==== Sys2Proof/Machine/Faults.lean ====
section
/-! DEFINITION. The fault collector (R554 to R583): counting, reactions, HOLD, re-admission, injection. -/

namespace Sys2Proof.Machine

/-! ## Units -/

/-- The unit a source reports on, where a reaction can act on it (R554). -/
def unitOf (src : Nat) : Option (UnitKind × Nat) :=
  match fcClassOf src with
  | none => none
  | some (c, k) =>
    let u := src - k.first
    if c ≤ 3 then some (.twin, u)
    else if 7 ≤ c ∧ c ≤ 12 then some (.port, u)
    else if c = 14 then some (.cwy, u)
    else if c = 15 then some (.pcie, u)
    else if c = 16 then some (.flx, u)
    else if c = 17 then some (.chEng, u)
    else if c = 18 then some (.cmp, u)
    else if c = 19 then some (.cip, u)
    else none

/-- A number for each kind of unit. -/
def UnitKind.code : UnitKind → Nat
  | .twin => 0
  | .port => 1
  | .cwy => 2
  | .pcie => 3
  | .flx => 4
  | .chEng => 5
  | .cmp => 6
  | .cip => 7

/-- The sources of a unit. -/
def sourcesOf (k : UnitKind) (u : Nat) : List Nat :=
  (fcClasses.map (fun c => c.first + u)).filter (fun n => decide (unitOf n = some (k, u)))

/-- Whether a unit is fenced. -/
def State.isFenced (s : State) (k : UnitKind) (u : Nat) : Bool := s.std.fenced.any (fun f => decide (f.1 = k ∧ f.2.1 = u))

/-- FC_SRC_STAT_n (R580). -/
def offStat (n : Nat) : Nat := offFc + 0x8000 + 8 * n

/-- FC_SRC_CFG_n (R579). -/
def offSrcCfg (n : Nat) : Nat := offFc + 0x4000 + 8 * n

/-- A source that has become severe: its class, N, the detail, whether the event was injected. -/
structure Severe where
  src : Nat
  cls : Nat
  n : Nat
  detail : BitVec 32
  inj : Bool
deriving DecidableEq, Repr

/-! ## Counting (R557) -/

/-- One event of a source is counted; the source when it becomes severe. -/
def State.countEvent (s : State) (src : Nat) (detail : BitVec 32) (inj : Bool) : State × Option Severe :=
  match fcClassOf src with
  | none => (s, none)
  | some (c, _) =>
    let unit := unitOf src
    let inj := inj || (match unit with | some u => s.std.injected.contains u | none => false)
    let left := match unit with | some u => s.std.injected.erase u | none => s.std.injected
    let cfg := s.reg (offSrcCfg src)
    let w := s.reg (offStat src)
    let start := s.std.starts.get src 0
    let old := bits w 7 0
    let open' : Bool := decide (0 < old ∧ s.std.clock - start < bits cfg 42 16 * 1000000)
    let cnt := (if open' then old else 0) + 1
    let severe : Bool := decide (bits cfg 15 8 ≤ cnt)
    let starts := if open' then s.std.starts else s.std.starts.put src s.std.clock 0
    let w := setBits w 7 0 (if severe then 0 else cnt)
    let w := setBits (setBits w 31 16 (min (bits w 31 16 + 1) 0xFFFF)) 63 32 detail.toNat
    let w := w ||| field 8 8 1 ||| field 9 9 (b2n severe)
    let s : State := { s with std := { s.std with starts := starts, injected := left } }
    let s := (s.setReg (offStat src) w).setRegF offFc c c 1
    (s, if severe then some ⟨src, c, bits cfg 15 8, detail, inj⟩ else none)

/-! ## Reactions (R560 to R562) -/

/-- The entry of a severe source. -/
def State.logSevere (s : State) (e : Severe) (action : Nat) : State := s.fcLog e.src e.inj action e.n e.detail

/-- HOLD (R561, R563): in LANDED without a HOLD it is superseded; the mismatch record of a second mismatch shows it. -/
def State.reactHold (s : State) (e : Severe) : State :=
  if s.powerState = 2 ∧ ¬ s.std.faultHold then s.logSevere e 7
  else
    let s := if e.cls = 1 then
        match s.lpOfTwin (e.src - 0x40) with
        | some lp => if (s.lpv lp).failed then s.mmReaction lp 4 none else s
        | none => s
      else s
    (s.logSevere e 4).hold

/-- RETRY: the unit is reinitialised in place. -/
def State.retryUnit (s : State) (k : UnitKind) (u : Nat) : State :=
  match k with
  | .pcie => s.pcieDrop u 2
  | .flx => s.flxLeave u 2
  | .chEng => s.engineDrop u false
  | .cmp =>
    let s := s.abandonSteps (fun _ x => decide (x.unit = some u))
    { s with vol := { s.vol with ctxs := s.vol.ctxs.filter (fun c => decide (c.2.1 ≠ u)) } }
  | .cip => ((s.cipAbandon u).cipClear u true).cipSettle
  | _ => s

/-- FENCE of a unit that is not a twin: its chapter's fenced behaviour, and MOD_EVENT.UNIT_FENCED. -/
def State.fenceUnit (s : State) (k : UnitKind) (u cls : Nat) : State :=
  if s.isFenced k u then s
  else
    let s : State := { s with std := { s.std with fenced := s.std.fenced ++ [(k, u, cls)] } }
    match k with
    | .twin => s.modEvent 1
    | .port => s.fencePort u
    | .cwy => s.fenceLink u
    | .pcie => (s.pcieDrop u 4).modEvent 1
    | .flx => (s.flxLeave u 4).modEvent 1
    | .chEng => (s.engineDrop u true).modEvent 1
    | .cmp => (s.cmpFence u).modEvent 1
    | .cip => (s.cipFence u).modEvent 1

/-- SPARE or FENCE of a twin (R223, R560, R562): at once after a second mismatch, else at the next window boundary; a twin of
no LP is retired or fenced in place. -/
def State.reactTwin (s : State) (e : Severe) (t : Nat) (fence : Bool) : State :=
  let act := if fence then 3 else 2
  match s.lpOfTwin t with
  | none =>
    if s.nv.cfg.retired.getLsbD t then s.logSevere e 7
    else if fence then (s.fenceUnit .twin t e.cls).logSevere e 3
    else if s.isFenced .twin t then s.logSevere e 7
    else (s.retireTwin t).logSevere e 2
  | some lp =>
    let v := s.lpv lp
    if v.sparing.isSome ∨ v.ask.isSome then s.logSevere e 7
    else if v.failed then
      let mm := BitVec.ofNat 32 v.mmIdx
      match s.startSparing lp fence e.cls with
      | (true, s) => s.fcLog e.src e.inj act e.n mm
      | (false, s) => (s.fcLog e.src e.inj 4 e.n mm).hold
    else s.setLpv lp { v with ask := some (fence, e.src + 2048 * b2n e.inj) }

/-- A reaction is applied, or superseded in LANDING, LANDED and HOLD (R561). -/
def State.react (s : State) (e : Severe) (r : Nat) : State :=
  if r = 4 then s.reactHold e
  else if s.powerState = 1 ∨ s.powerState = 2 ∨ s.powerState = 4 then s.logSevere e 7
  else match r, unitOf e.src with
    | 1, some (k, u) => (s.retryUnit k u).logSevere e 1
    | 2, some (.twin, t) => s.reactTwin e t false
    | 3, some (.twin, t) => s.reactTwin e t true
    | 3, some (k, u) => (s.fenceUnit k u e.cls).logSevere e 3
    | _, _ => s.logSevere e 0

/-- Severe sources in ascending source number. -/
def insertSevere (x : Severe) : List Severe → List Severe
  | [] => [x]
  | y :: r => if x.src < y.src then x :: y :: r else y :: insertSevere x r

/-- REACTION of a source. -/
def State.reactionOf (s : State) (e : Severe) : Nat := s.regF (offSrcCfg e.src) 2 0

/-- The reactions of one fault-clock cycle (R561): HOLD first, the others superseded. -/
def State.reactAll (s : State) (l : List Severe) : State :=
  match l.find? (fun e => decide (s.reactionOf e = 4)) with
  | some h => (l.erase h).foldl (fun s e => s.logSevere e 7) (s.reactHold h)
  | none => l.foldl (fun s e => s.react e (s.reactionOf e)) s

/-- The events of one fault-clock cycle (R557, R561). -/
def State.fcCycle (s : State) (l : List (Nat × BitVec 32)) (inj : Bool) : State :=
  let r := l.foldl (fun (a : State × List Severe) e =>
    match a.1.countEvent e.1 e.2 inj with
    | (s, some x) => (s, insertSevere x a.2)
    | (s, none) => (s, a.2)) (s, [])
  r.1.reactAll r.2

/-! ## Errors of the units' own stores -/

/-- The line a way of a cache's set holds. -/
def State.lineInWay (s : State) (agent set way : Nat) : Option Nat :=
  (s.vol.caches.dir.find? (fun e =>
    decide (e.1 % 128 = agent ∧ e.2.st ≠ .i ∧ cacheSet agent (e.1 / 128) = set ∧ e.2.way = way))).map (·.1 / 128)

/-- An uncorrectable error in a way of an L2 or an L3 slice (R208, R240): a clean line is invalidated and fetched again by the access
that finds it; a dirty line is poisoned. -/
def State.cacheError (s : State) (agent set way : Nat) : State :=
  match s.lineInWay agent set way with
  | none => s
  | some ln =>
    if ¬ (s.cline agent ln).st.dirty then s.setCline agent ln CLine.none
    else match s.lineRef ln with
      | some r => { s with mem := { s.mem with poison := s.mem.poison.put r.key true false } }
      | none => s

/-- An uncorrectable error in a way of an L1, whose lines are never dirty (R217, R240): the line is invalidated. -/
def State.l1Error (s : State) (id set way : Nat) : State :=
  s.withCaches (fun c => { c with l1 := c.l1.put (l1Key id (set % 64) (way % 8)) none none })

/-- What an event says of the unit's own stores, and whether it also reaches the collector (DESIGN CHOICE, log 57).  DETAIL bit 31 of
classes 2, 5 and 9 tells an uncorrectable error; class 9 of the check line that bits 30:0 number, which is lost where it is dirty (R338);
classes 2 and 5 of a cache: bits 3:0 the way, bits 17:4 the set, bits 29:28 of class 2 the cache, 0 L2, 1 L1I,
2 L1D, 3 the control store, whose micro-address bits 15:0 give (R176); class 2 counts corrected errors only.  DETAIL bits 4:0 of class 3 name the register groups whose checkpoint words hold an
uncorrectable error (R219): they act at the LP's next retry or sparing.  An event of class 15 is an error the link has logged, counted in its AER_COUNT (R446, R457), one of
class 16 an uncorrectable FEC codeword, counted in FEC_UNCORR (R491). -/
def State.storeError (s : State) (src : Nat) (detail : BitVec 32) : Bool × State :=
  let set := bits (detail.setWidth 64) 17 4
  let way := bits (detail.setWidth 64) 3 0
  if 0x80 ≤ src ∧ src < 0xC0 ∧ detail.getLsbD 31 then
    let t := src - 0x80
    let c := bits (detail.setWidth 64) 29 28
    (false, if c = 0 then s.cacheError t set way
      else if c = 3 then { s with vol := { s.vol with badWords := s.vol.badWords ++ [(t, bits (detail.setWidth 64) 15 0)] } }
      else s.l1Error (64 * (c - 1) + t) set way)
  else if 0x140 ≤ src ∧ src < 0x150 ∧ detail.getLsbD 31 then (true, s.cacheError (64 + (src - 0x140)) set way)
  else if 0x180 ≤ src ∧ src < 0x190 ∧ detail.getLsbD 31 then
    let p := src - 0x180
    let first := 64 * bits (detail.setWidth 64) 30 0
    if s.checkDirty p first then (true, s.checkLineLost p first) else (false, s)
  else if 0xC0 ≤ src ∧ src < 0x100 then
    match s.lpOfTwin (src - 0xC0) with
    | some lp => (true, s.setLpv lp { s.lpv lp with badCkpt := (s.lpv lp).badCkpt ||| detail.setWidth 5 })
    | none => (true, s)
  else if 0x1C8 ≤ src ∧ src < 0x1D8 then
    let o := offPl (src - 0x1C8)
    (true, s.setRegF o 31 16 (min 0xFFFF (s.regF o 31 16 + 1)))
  else if 0x1D8 ≤ src ∧ src < 0x1E8 then
    let o := offFl (src - 0x1D8)
    (true, s.setRegF o 47 32 (min 0xFFFF (s.regF o 47 32 + 1)))
  else (true, s)

/-- FAULT_EVENT (R557): the events the units have reported, and those it brings, reach the collector. -/
def execFaultEvent (events : List (Fin 2048 × BitVec 32)) (s : State) : Out :=
  .next (
    if ¬ s.std.standby then s
    else
      let r := events.foldl (fun (a : List (Nat × BitVec 32) × State) e =>
        match a.2.storeError e.1.val e.2 with
        | (true, s) => (a.1 ++ [(e.1.val, e.2)], s)
        | (false, s) => (a.1, s)) (s.std.reports, s)
      { r.2 with std := { r.2.std with reports := [] } }.fcCycle r.1 false)

/-! ## Recovery and the collector's own faults -/

/-- RECOVERY_DECAY (R566). -/
def execRecoveryDecay (s : State) : Out :=
  .next (
    let n := s.regF (offFc + 0x10) 15 0
    if s.pwr.phase ≠ .running ∨ s.regF (offFc + 8) 37 24 = 0 ∨ n = 0 then s else s.setRecovery (n - 1))

/-- COLLECTOR_ERROR (R569): FC_SELF, straight to HOLD without counting; a reload follows at the resume. -/
def execCollectorError (s : State) : Out :=
  .next (
    if ¬ s.std.standby then s
    else
      let s : State := { s with std := { s.std with reload := true } }
      let w := s.reg (offStat 0x215)
      let s := s.setReg (offStat 0x215) (setBits w 31 16 (min (bits w 31 16 + 1) 0xFFFF) ||| field 9 8 3)
      (s.setRegF offFc 25 25 1).reactHold ⟨0x215, 25, 1, 0, false⟩)

/-- FAULT_CLOCK_STOP (R569): HOLD through the hardwired path. -/
def execFaultClockStop (s : State) : Out :=
  .next (if s.pwr.phase = .running ∨ s.pwr.phase = .landing ∨ s.pwr.phase = .training then
      { s with std := { s.std with reload := true } }.hold
    else s)

/-! ## Injection and keel-raised faults (R570, R571, R577) -/

/-- The must-be-zero bits of FC_INJECT and FC_RAISE. -/
def fcMbz (v : Word) : Bool := decide (bits v 11 11 = 0 ∧ bits v 31 13 = 0)

/-- A real error in the unit (R570); `none` where the class has no unit error. -/
def State.injectUnit (s : State) (src detail : Nat) : Option State :=
  match unitOf src with
  | none => none
  | some (k, u) =>
    let mark (s : State) : State := { s with std := { s.std with injected := s.std.injected ++ [(k, u)] } }
    match k with
    | .twin => match s.lpOfTwin u with
      | some lp => some (mark (s.setLpv lp { s.lpv lp with inject := (s.lpv lp).inject ++ [detail % 64] }))
      | none => some s
    | .port =>
      let key := u * 2 ^ 32 + detail
      if s.portState u ≠ 2 ∨ dataEnd (s.recordedCap u) ≤ detail * 256 then none
      else
        let t := tileCheck (detail * 256) (s.mem.media.bytes (key * 256) 256)
        let w := ((s.mem.checks.get key none).getD t) ^^^ 0xFF
        some (mark { s with mem := { s.mem with checks := s.mem.checks.put key (if w = t then none else some w) none } })
    | .pcie =>
      if s.regF (offPl u) 2 0 ≠ 3 then some s
      else some (((mark s).setRegF (offPl u) 31 16 (min 0xFFFF (s.regF (offPl u) 31 16 + 1))).report src)
    | .flx =>
      if s.flxSt u ≠ 3 then some s
      else some (((mark s).setRegF (offFl u) 47 32 (min 0xFFFF (s.regF (offFl u) 47 32 + 1))).report src)
    | .cwy => if s.linkState u ≠ 2 then some s else some ((mark s).report src)
    | _ => none

/-- A write of FC_INJECT (R570). -/
def State.fcInject (s : State) (v : Word) : State :=
  if s.nv.otp.cycle ≠ 0 ∨ ¬ fcMbz v then s
  else
    let ev := s.fcCycle [(bits v 10 0, BitVec.ofNat 32 (bits v 63 32))] true
    if bit v 12 then (s.injectUnit (bits v 10 0) (bits v 63 32)).getD ev else ev

/-- FC_INJECT (R570). -/
def execFcInject (src : Src) (v : Word) (s : State) : Out := .next (if s.srcKeel src then s.fcInject v else s)

/-- A write of FC_RAISE (R571). -/
def State.fcRaise (s : State) (v : Word) : State :=
  if ¬ fcMbz v ∨ bit v 12 ∨ bits v 10 0 < 0x400 then s
  else s.fcCycle [(bits v 10 0, BitVec.ofNat 32 (bits v 63 32))] false

/-- FC_RAISE (R571). -/
def execFcRaise (src : Src) (v : Word) (s : State) : Out := .next (if s.srcKeel src then s.fcRaise v else s)

/-- FC_SRC_CFG_WRITE (R555, R558, R579): the value takes effect at the source's next event. -/
def execFcSrcCfgWrite (src : Src) (source : Fin 2048) (v : Word) (s : State) : Out :=
  .next (if s.srcKeel src then s.setReg (offSrcCfg source.val) (BitVec.ofNat 64 (clampSrcCfg source.val v.toNat)) else s)

/-! ## Re-admission (R568) -/

/-- SPEED of a PCIe link (R457) for a rate in GT/s. -/
def speedCode (gts : Nat) : Nat :=
  if gts = 64 then 6 else if gts = 32 then 5 else if gts = 16 then 4 else if gts = 8 then 3 else if gts = 5 then 2 else 1

/-- A unit goes through its own re-admission: whether it passes. -/
def State.tryUnit (s : State) (k : UnitKind) (u : Nat) (pass : Bool) (exp : Expander) (peer : CwyPeer) : Bool × State :=
  if ¬ pass then
    (false, match k with
      | .port => s.setRegF (offPm u) 6 4 7
      | .cwy => s.setRegF (offLink u) 26 24 5
      | _ => s)
  else match k with
    | .twin => (true, s.modEvent 2)
    | .port => s.readmitPort u exp
    | .cwy => match s.trainLink u peer with
      | (true, s) => (true, s.modEvent 2)
      | (false, s) => (false, s)
    | .pcie => (true, ((s.setRegF (offPl u) 2 0 2).pcieUp u (speedCode exp.speed) exp.lanes).modEvent 2)
    | .flx => (true, ((s.setRegF (offFl u) 2 0 2).flxUp u).modEvent 2)
    | .chEng => (true, (s.setRegF (offCh + 0x100 + 8 * u) 1 0 0).modEvent 2)
    | .cmp => (true, ((s.setRegF (offCmp u) 1 0 0).setRegF (offCmp u + 8) 1 1 1).modEvent 2)
    | .cip => (true, ((s.setRegF (offCip u + 0x10) 1 0 0).setRegF (offCip u + 0x18) 1 1 1).modEvent 2)

/-- A unit is no longer fenced; COUNT and the window of its sources are cleared. -/
def State.unfence (s : State) (k : UnitKind) (u : Nat) : State :=
  let s : State := { s with std := { s.std with fenced := s.std.fenced.filter (fun f => !decide (f.1 = k ∧ f.2.1 = u)) } }
  (sourcesOf k u).foldl (fun s n =>
    { s with std := { s.std with starts := s.std.starts.put n 0 0 } }.setRegF (offStat n) 7 0 0) s

/-- FENCE_QUIET_EXPIRY (R344, R568): the unit of the source goes through its re-admission in RUN, unless it has had
MAX_READMIT of them or its expander is another one. -/
def execFenceQuietExpiry (source : Fin 2048) (pass : Bool) (exp : Expander) (peer : CwyPeer) (s : State) : Out :=
  .next (
    match unitOf source.val with
    | none => s
    | some (k, u) =>
      match s.std.fenced.find? (fun f => decide (f.1 = k ∧ f.2.1 = u)) with
      | none => s
      | some f =>
        let mx := s.regF (offFc + 0x100 + 8 * f.2.2) 23 16
        let key := k.code * 1024 + u
        let n := s.std.readmits.get key 0
        let src := ((fcClasses.map FcClass.first).getD f.2.2 0) + u
        if s.pwr.phase ≠ .running ∨ (mx ≠ 0 ∧ mx ≤ n) ∨ (k = .port ∧ s.regF (offPm u) 6 4 = 5) then s
        else match s.tryUnit k u pass exp peer with
          | (true, s) =>
            let s := s.unfence k u
            { s with std := { s.std with readmits := s.std.readmits.put key (n + 1) 0 } }.fcLogFree src 5
          | (false, s) =>
            let s := if k = .twin then (s.retireTwin u).unfence k u else s
            s.fcLogFree src 6)

end Sys2Proof.Machine
end

