-- ==== Sys2Proof/Machine/Bus.lean ====
section
/-! DEFINITION. Control space as an access reaches it (R14, R16, R32 to R34): how every register of every block reads, and what a
write of it does. -/

namespace Sys2Proof.Machine

/-! ## Which registers exist -/

/-- Whether an offset of the window names a register of this module (R4, R14, R33). -/
def State.regExists (s : State) (off : Nat) : Bool :=
  (regInfo off).isSome && (decide (off < offLp 0 ∨ offCoh ≤ off) || decide ((off - offLp 0) / 0x1000 < s.lpCount))

/-- The index of a page of `sz` bytes from `base`. -/
def pageOf (base sz off : Nat) : Nat := (off - base) / sz

/-! ## MOD (R36 to R45) -/

/-- MOD_ID (R37). -/
def State.modId (s : State) : Word :=
  field 15 0 0x53F1 ||| field 31 16 0x9600 ||| field 39 32 s.pwr.stepping.toNat ||| field 43 40 s.pwr.part.toNat |||
    field 50 48 s.pwr.modid.val

/-- The twins in the retire map (R38, R39). -/
def State.retiredCount (s : State) : Nat := ((List.range 64).filter (fun t => s.nv.cfg.retired.getLsbD t)).length

/-- MOD_COUNT (R38). -/
def State.modCount (s : State) : Word :=
  let n := s.lpCount
  let r := s.retiredCount
  field 7 0 n ||| field 15 8 (64 - n) ||| field 23 16 (64 - n - r) ||| field 31 24 r

/-- A MOD register as it reads. -/
def State.modRead (s : State) (o : Nat) : Word :=
  if o = 0 then s.modId
  else if o = 8 then s.modCount
  else if o = 0x18 then setBits (s.reg 0x18) 4 3 s.nv.otp.cycle
  else if o = 0x28 then s.live.time
  else s.reg o

/-! ## LP control pages (R149 to R153) -/

/-- STATE of LP_STATE (R150). -/
def LpSt.code : LpSt → Nat
  | .running => 0
  | .idle => 1
  | .stopped => 2
  | .locked => 3

/-- LP_STATE (R150). -/
def State.lpState (s : State) (lp : LpId) : Word :=
  let l := s.lp lp
  field 1 0 (s.stateOf lp).code ||| field 4 2 l.run.val ||| field 5 5 (b2n l.latS) ||| field 6 6 (b2n l.latH) ||| field 7 7 (b2n l.latK) |||
    field 9 8 l.order.toNat |||
    field 16 10 (((List.finRange 8).map (fun k => if k.val ≠ 0 ∧ (l.slips.get k).task ≠ 0 then 2 ^ (k.val - 1) else 0)).sum)

/-- A register of an LP control page as it reads. -/
def State.lpPageRead (s : State) (lp : LpId) (o : Nat) : Word :=
  let l := s.lp lp
  if o = 0 then s.lpState lp
  else if o = 0x10 then l.lock
  else if o = 0x18 then l.lockAddr
  else if o = 0x20 then l.timer
  else 0

/-- The LP of a control page. -/
def lpOfPage (off : Nat) : LpId := ⟨pageOf (offLp 0) 0x1000 off % 64, by omega⟩

/-! ## The other blocks as they read -/

/-- A COH register (R279 to R283). -/
def State.cohBlock (s : State) (o : Nat) : Word :=
  match cohAgent (offCoh + o) with
  | some a => s.cohRead a
  | none => match arrIdx 0x500 16 8 o with
    | some p => s.cohHomeRead p
    | none => s.reg (offCoh + o)

/-- The position of a port in its mapped set. -/
def State.setOfPort (s : State) (p : Nat) : Option MSet := s.live.sets.find? (fun t => t.ports.contains p)

/-- PM_SET (R353). -/
def State.pmSet (s : State) (p : Nat) : Word :=
  match s.setOfPort p with
  | none => 0
  | some t =>
    field 2 0 t.num ||| field 3 3 1 ||| field 8 4 t.ports.length ||| field 12 9 (t.ports.idxOf p) |||
      field 14 13 (if t.granule = 256 then 0 else if t.granule = 4096 then 1 else 2) ||| field 30 16 t.base

/-- A PM register (R348 to R358). -/
def State.pmRead (s : State) (p o : Nat) : Word :=
  if o = 0x10 then
    setBits (s.reg (offPm p + o)) 41 32 (match s.setOfPort p with | some t => t.share | none => 0)
  else if o = 0x20 then s.pmSet p
  else if o = 0x38 then 0
  else if o = 0x40 then field 16 0 (s.nv.parks.get p []).length
  else s.reg (offPm p + o)

/-- A CH register (R449 to R454). -/
def State.chRead (s : State) (o : Nat) : Word :=
  if o = 8 then s.chStatus
  else if o = 0x10 then 0
  else if o = 0x38 then setBits (s.reg (offCh + o)) 22 0 s.nv.journal.length
  else if 0x100 ≤ o ∧ o < 0x180 then s.chEngineRead ((o - 0x100) / 8)
  else if 0x4000 ≤ o ∧ o < 0x6000 then s.chVcfRead ((o - 0x4000) / 8)
  else s.reg (offCh + o)

/-- A register of a VCF's doorbell page (R413, R422, R455); VCF_DB_q, VCF_OPEN and VCF_QCMD are written only. -/
def State.vcfRead (s : State) (n o : Nat) : Word :=
  if o < 0x808 ∨ o = 0x810 then 0
  else if o = 0x808 then s.vcfStatus n
  else if 0xA00 ≤ o then s.live.xlatched.get (offVcf n + o) 0
  else s.reg (offVcf n + o)

/-- A CMP register (R523 to R525). -/
def State.cmpRead (s : State) (e o : Nat) : Word :=
  if o = 0 then s.cmpState e else if 0x10 ≤ o then s.live.xlatched.get (offCmp e + o) 0 else s.reg (offCmp e + o)

/-- A CIP register (R526 to R530). -/
def State.cipRead (s : State) (e o : Nat) : Word :=
  if o = 8 then 0
  else if o = 0x10 then s.cipStatus e
  else if 0x20 ≤ o then s.live.xlatched.get (offCip e + o) 0
  else s.reg (offCip e + o)

/-- A FLX register (R489 to R495): FLX_CMD and the window keys read 0. -/
def State.flxRead (s : State) (p o : Nat) : Word :=
  if o = 0x1010 ∨ (0x2000 ≤ o ∧ o % 0x20 = 0x10) then 0 else s.reg (offFlx p + o)

/-- A TALLY register (R633 to R638). -/
def State.tallyRead (s : State) (o : Nat) : Word :=
  if o = 8 then setBits (s.reg (offTally + 8)) 0 0 (b2n s.ringValid)
  else if 0x4000 ≤ o then
    let i := (o - 0x4000) / 8
    setBits (s.live.tally.get i 0) 49 49 (b2n (s.live.changed.get i false))
  else s.reg (offTally + o)

/-- An FC register (R573 to R583): FC_INJECT and FC_RAISE are written only, FENCED of a source follows its unit. -/
def State.fcRead (s : State) (o : Nat) : Word :=
  if o = 0x18 ∨ o = 0x20 then 0
  else if 0x8000 ≤ o ∧ o < 0xC000 then
    let n := (o - 0x8000) / 8
    setBits (s.reg (offFc + o)) 10 10 (match unitOf n with | some (k, u) => b2n (s.isFenced k u) | none => 0)
  else s.reg (offFc + o)

/-- The value of the register at an offset as `src` reads it. -/
def State.regValue (s : State) (src : Src) (off : Nat) : Word :=
  if off < offCfg then s.modRead off
  else if off < offFc then s.reg off
  else if off < offLand then s.fcRead (off - offFc)
  else if off < offRtu then s.landRead (off - offLand)
  else if off < offTally then s.rtuRead src (off - offRtu)
  else if off < offEvt then s.tallyRead (off - offTally)
  else if off < offLp 0 then s.reg off
  else if off < offCoh then s.lpPageRead (lpOfPage off) (off % 0x1000)
  else if off < offPm 0 then s.cohBlock (off - offCoh)
  else if off < offPcie then s.pmRead (pageOf (offPm 0) 0x10000 off) (off % 0x10000)
  else if off < offCh then s.reg off
  else if off < offVcf 0 then s.chRead (off - offCh)
  else if off < offCmp 0 then s.vcfRead (pageOf (offVcf 0) 0x1000 off) (off % 0x1000)
  else if off < offCip 0 then s.cmpRead (pageOf (offCmp 0) 0x1000 off) (off % 0x1000)
  else if off < offFlx 0 then s.cipRead (pageOf (offCip 0) 0x1000 off) (off % 0x1000)
  else if off < offCwy then s.flxRead (pageOf (offFlx 0) 0x10000 off) (off % 0x10000)
  else s.reg off

/-- The fields that a read clears (R16, R18): LP_STATE.ORDER, CH_JOURNAL.HIGH, CIP_STATUS.CLAIM. -/
def State.readClears (s : State) (off : Nat) : State :=
  if offLp 0 ≤ off ∧ off < offCoh ∧ off % 0x1000 = 0 then
    s.setLp (lpOfPage off) { s.lp (lpOfPage off) with order := 0 }
  else if off = offCh + 0x38 then s.setRegF off 45 23 0
  else if offCip 0 ≤ off ∧ off < offFlx 0 ∧ off % 0x1000 = 0x10 then s.setRegF off 6 5 0
  else s

/-- A read of control space: the value and the state after it; `none` is a bus error (R33). -/
def State.busRead (s : State) (src : Src) (off : Nat) : Option (Word × State) :=
  if s.regExists off then some (s.regValue src off, s.readClears off) else none

/-! ## Writes -/

/-- A write under the access codes alone (R16). -/
def State.plainWrite (s : State) (src : Src) (off : Nat) (v : Word) : State :=
  match regInfo off with
  | some r => s.setReg off (writeValue r (s.srcKeel src) (s.reg off) v)
  | none => s

/-- A write of an FC register (R570, R571, R574, R575, R578, R579). -/
def State.fcWrite (s : State) (src : Src) (o : Nat) (v : Word) : State :=
  let keel := s.srcKeel src
  if o = 0 then
    let s := s.plainWrite src offFc v
    if bit v 32 then { s with std := { s.std with logSince := 0 } } else s
  else if o = 8 then (if keel then s.setReg (offFc + 8) (BitVec.ofNat 64 (clampFcHold v.toNat)) else s)
  else if o = 0x18 then (if keel then s.fcInject v else s)
  else if o = 0x20 then (if keel then s.fcRaise v else s)
  else if 0x100 ≤ o ∧ o < 0x400 then
    (if keel then s.setReg (offFc + o) ((s.reg (offFc + o) &&& msk 26 24) ||| BitVec.ofNat 64 (clampFcClass v.toNat)) else s)
  else if 0x4000 ≤ o ∧ o < 0x8000 then
    (if keel then s.setReg (offFc + o) (BitVec.ofNat 64 (clampSrcCfg ((o - 0x4000) / 8) v.toNat)) else s)
  else s.plainWrite src (offFc + o) v

/-- A write of an RTU register (R549 to R553). -/
def State.rtuWrite (s : State) (src : Src) (o : Nat) (v : Word) : State :=
  if o = 8 then s.rtuClaim src v
  else if o = 0x10 then s.rtuCmd src v
  else if 0x1000 ≤ o then s.rtuBufWrite src (offRtu + o) v
  else s

/-- A write of a TALLY register (R633 to R637). -/
def State.tallyWrite (s : State) (src : Src) (o : Nat) (v : Word) : State :=
  let keel := s.srcKeel src
  if o = 0 then (if keel then s.tallyCtl v else s)
  else if o = 0x10 ∨ o = 0x18 then (if keel then s.tallyRing (decide (o = 0x18)) v else s)
  else if 0x1000 ≤ o ∧ o < 0x4000 then s.tallySel ((o - 0x1000) / 8) v
  else s.plainWrite src (offTally + o) v

/-- A write of an LP control page (R149, R151, R153). -/
def State.lpPageWrite (s : State) (src : Src) (lp : LpId) (o : Nat) (v : Word) : State :=
  if o = 8 then (if s.srcKeel src then s.lpOrder lp (bits v 3 0) else s)
  else if o = 0x20 then s.timerWrite lp v
  else s

/-- A write of a COH register (R279 to R283). -/
def State.cohBlockWrite (s : State) (src : Src) (o : Nat) (v : Word) : State :=
  if o = 0 then (if s.srcKeel src then s.cohCtlWrite v else s)
  else match cohAgent (offCoh + o) with
    | some a => s.cohWrite a v
    | none => s.plainWrite src (offCoh + o) v

/-- A write of a PM register (R348, R350, R356). -/
def State.pmWrite (s : State) (src : Src) (p o : Nat) (v : Word) : State :=
  if o = 8 then
    (if s.srcKeel src then s.setReg (offPm p + 8) (field 0 0 (bits v 0 0) ||| field 15 8 (max 1 (bits v 15 8))) else s)
  else if o = 0x38 then s.pmPoison p v
  else s.plainWrite src (offPm p + o) v

/-- A write of a CH register (R410, R449, R450). -/
def State.chWrite (s : State) (src : Src) (o : Nat) (v : Word) : State :=
  if o = 0 then (if s.srcKeel src then s.chCtlWrite v else s)
  else if o = 0x10 then (if s.pwr.phase = .running then s.chCmd v else s)
  else s.plainWrite src (offCh + o) v

/-- A write of a VCF's doorbell page (R413, R414, R416). -/
def State.vcfWrite (s : State) (src : Src) (n o : Nat) (v : Word) : State :=
  if o < 0x800 then (if s.dbMay then s.doorbell n (o / 8) v else s)
  else if ¬ s.srcMay src 2 then s
  else if o = 0x800 then (if s.vcfMay src then s.vcfOpen n v else s)
  else if o = 0x810 then (if s.vcfMay src then s.vcfQcmd n v else s)
  else s.plainWrite src (offVcf n + o) v

/-- A write of a CIP register (R516 to R519, R527, R528). -/
def State.cipWrite (s : State) (src : Src) (e o : Nat) (v : Word) : State :=
  if o = 0 then s.cipLockWrite e (bits v 15 0)
  else if o = 8 then (if bit v 0 ∧ s.srcKeel src then s.cipForce e else s)
  else if o = 0x10 then s
  else s.plainWrite src (offCip e + o) v

/-- FLX_PORT_CTL.ENABLE takes effect (R490): set, the links that have a MAC address train; cleared, the links go down. -/
def State.flxEnable (s : State) (p : Nat) (was : Bool) : State :=
  let now := bit (s.reg (offFlx p)) 0
  if was = now then s
  else (List.range 4).foldl (fun s k =>
    let l := 4 * p + k
    if now then (if s.flxSt l = 1 ∧ s.reg (offFl l + 8) ≠ 0 then s.setRegF (offFl l) 2 0 2 else s)
    else if s.flxSt l = 3 then (s.flxLeave l 1).flxPortEvent l 0
    else if s.flxSt l = 2 then s.setRegF (offFl l) 2 0 1
    else s) s

/-- A write of a FLX register (R489 to R495). -/
def State.flxWriteReg (s : State) (src : Src) (p o : Nat) (v : Word) : State :=
  if o = 0 then
    let was := bit (s.reg (offFlx p)) 0
    (s.plainWrite src (offFlx p) v).flxEnable p was
  else if o = 0x1010 then (if s.pwr.phase = .running then s.flxCmd v else s)
  else s.plainWrite src (offFlx p + o) v

/-- What a write of an existing register does; a processor's or a probe's write below a doorbell page needs H (R20, R47). -/
def State.regWrite (s : State) (src : Src) (off : Nat) (v : Word) : State :=
  if offRtu ≤ off ∧ off < offTally then s.rtuWrite src (off - offRtu) v
  else if offVcf 0 ≤ off ∧ off < offCmp 0 then s.vcfWrite src (pageOf (offVcf 0) 0x1000 off) (off % 0x1000) v
  else if ¬ s.srcMay src 1 then s
  else if off < offCfg then s.plainWrite src off v
  else if off < offFc then (if off = offCfg + 8 ∧ s.srcKeel src then s.cfgCtl v else s)
  else if off < offLand then s.fcWrite src (off - offFc) v
  else if off < offRtu then (if off = offLand + 8 ∧ s.srcKeel src then s.landCtl v else s)
  else if off < offEvt then s.tallyWrite src (off - offTally) v
  else if off < offLp 0 then (if off = offEvt + 0x8000 then s.evtRaise v else s.plainWrite src off v)
  else if off < offCoh then s.lpPageWrite src (lpOfPage off) (off % 0x1000) v
  else if off < offPm 0 then s.cohBlockWrite src (off - offCoh) v
  else if off < offPcie then s.pmWrite src (pageOf (offPm 0) 0x10000 off) (off % 0x10000) v
  else if off < offCh then s
  else if off < offVcf 0 then s.chWrite src (off - offCh) v
  else if off < offCip 0 then s.plainWrite src off v
  else if off < offFlx 0 then s.cipWrite src (pageOf (offCip 0) 0x1000 off) (off % 0x1000) v
  else if off < offCwy then s.flxWriteReg src (pageOf (offFlx 0) 0x10000 off) (off % 0x10000) v
  else if off = offUc + 8 then (if bit v 0 then s.ucFaultClear else s)
  else s.plainWrite src off v

/-- A write of control space; `none` is a bus error (R33). -/
def State.busWrite (s : State) (src : Src) (off : Nat) (v : Word) : Option State :=
  if s.regExists off then some (s.regWrite src off v) else none

/-- Whether `src` may make a register access at all: the main domain runs, and a processor stands at H or K, or at any level in a
doorbell page (R47, R413); the service port has rows of its own. -/
def State.busMay (s : State) (src : Src) (off : Nat) : Bool :=
  s.srcMay src (if offVcf 0 ≤ off ∧ off < offCmp 0 then 3 else 1)

/-- REGISTER_WRITE (R16, R33). -/
def execRegisterWrite (src : Src) (off : BitVec 32) (v : Word) (s : State) : Out :=
  .next (if s.busMay src off.toNat then (s.busWrite src off.toNat v).getD s else s)

/-- RC_READ (R16, R18): a read of a register, whose RC fields it clears. -/
def execRcRead (src : Src) (off : BitVec 32) (s : State) : Out :=
  .next (if s.busMay src off.toNat then (match s.busRead src off.toNat with | some (_, s') => s' | none => s) else s)

end Sys2Proof.Machine
end

