-- ==== Sys2Proof/Machine/FloatDec.lean ====
section
/-! DEFINITION. Floating-point instructions (R115 to R123) and packed decimal (R124 to R127). -/

namespace Sys2Proof.Machine

/-- FADD (R115). -/
def execFadd (lp : LpId) (d s1 s2 : Reg) (p : Bool) (s : State) : Out :=
  fpToF (.fadd lp d s1 s2 p) lp d (fun s => addFV (fmtOf p) (s.rmOf lp) (s.fv lp p s1) (s.fv lp p s2)) s

/-- FSUB (R115). -/
def execFsub (lp : LpId) (d s1 s2 : Reg) (p : Bool) (s : State) : Out :=
  fpToF (.fsub lp d s1 s2 p) lp d (fun s => addFV (fmtOf p) (s.rmOf lp) (s.fv lp p s1) (FV.negate (s.fv lp p s2))) s

/-- FMUL (R115). -/
def execFmul (lp : LpId) (d s1 s2 : Reg) (p : Bool) (s : State) : Out :=
  fpToF (.fmul lp d s1 s2 p) lp d (fun s => mulFV (fmtOf p) (s.rmOf lp) (s.fv lp p s1) (s.fv lp p s2)) s

/-- FDIV (R115). -/
def execFdiv (lp : LpId) (d s1 s2 : Reg) (p : Bool) (s : State) : Out :=
  fpToF (.fdiv lp d s1 s2 p) lp d (fun s => divFV (fmtOf p) (s.rmOf lp) (s.fv lp p s1) (s.fv lp p s2)) s

/-- FSQRT (R115). -/
def execFsqrt (lp : LpId) (d s1 : Reg) (p : Bool) (s : State) : Out :=
  fpToF (.fsqrt lp d s1 p) lp d (fun s => sqrtFV (fmtOf p) (s.rmOf lp) (s.fv lp p s1)) s

/-- FMA, one rounding (R115, R117). -/
def execFma (lp : LpId) (d s1 s2 : Reg) (p : Bool) (s : State) : Out :=
  fpToF (.fma lp d s1 s2 p) lp d (fun s => fmaFV (fmtOf p) (s.rmOf lp) (s.fv lp p s1) (s.fv lp p s2) (s.fv lp p d)) s

/-- FMS, one rounding (R115, R117). -/
def execFms (lp : LpId) (d s1 s2 : Reg) (p : Bool) (s : State) : Out :=
  fpToF (.fms lp d s1 s2 p) lp d (fun s => fmaFV (fmtOf p) (s.rmOf lp) (s.fv lp p s1) (s.fv lp p s2) (FV.negate (s.fv lp p d))) s

/-- FNMA, one rounding (R115, R117). -/
def execFnma (lp : LpId) (d s1 s2 : Reg) (p : Bool) (s : State) : Out :=
  fpToF (.fnma lp d s1 s2 p) lp d (fun s => fmaFV (fmtOf p) (s.rmOf lp) (FV.negate (s.fv lp p s1)) (s.fv lp p s2) (s.fv lp p d)) s

/-- FMIN (R120). -/
def execFmin (lp : LpId) (d s1 s2 : Reg) (p : Bool) (s : State) : Out :=
  fpToF (.fmin lp d s1 s2 p) lp d (fun s => minMaxFV (fmtOf p) false (s.f lp s1) (s.f lp s2)) s

/-- FMAX (R120). -/
def execFmax (lp : LpId) (d s1 s2 : Reg) (p : Bool) (s : State) : Out :=
  fpToF (.fmax lp d s1 s2 p) lp d (fun s => minMaxFV (fmtOf p) true (s.f lp s1) (s.f lp s2)) s

/-- FNEG (R115, R118). -/
def execFneg (lp : LpId) (d s1 : Reg) (p : Bool) (s : State) : Out :=
  fpToF (.fneg lp d s1 p) lp d (fun s => signFV (fmtOf p) false (s.f lp s1)) s

/-- FABS (R115, R118). -/
def execFabs (lp : LpId) (d s1 : Reg) (p : Bool) (s : State) : Out :=
  fpToF (.fabs lp d s1 p) lp d (fun s => signFV (fmtOf p) true (s.f lp s1)) s

/-- FCMPEQ, quiet (R116). -/
def execFcmpeq (lp : LpId) (d s1 s2 : Reg) (p : Bool) (s : State) : Out :=
  fpToG (.fcmpeq lp d s1 s2 p) lp d (fun s => cmpFV true eqFV (s.fv lp p s1) (s.fv lp p s2)) s

/-- FCMPLT, signalling (R116). -/
def execFcmplt (lp : LpId) (d s1 s2 : Reg) (p : Bool) (s : State) : Out :=
  fpToG (.fcmplt lp d s1 s2 p) lp d (fun s => cmpFV false ltFV (s.fv lp p s1) (s.fv lp p s2)) s

/-- FCMPLE, signalling (R116). -/
def execFcmple (lp : LpId) (d s1 s2 : Reg) (p : Bool) (s : State) : Out :=
  fpToG (.fcmple lp d s1 s2 p) lp d (fun s => cmpFV false (fun x y => ltFV x y || eqFV x y) (s.fv lp p s1) (s.fv lp p s2)) s

/-- FCLASS (R116). -/
def execFclass (lp : LpId) (d s1 : Reg) (p : Bool) (s : State) : Out :=
  fpToG (.fclass lp d s1 p) lp d (fun s => (classFV (fmtOf p) (s.fv lp p s1), 0)) s

/-- FCVTF: from the other precision to P (R116). -/
def execFcvtf (lp : LpId) (d s1 : Reg) (p : Bool) (s : State) : Out :=
  fpToF (.fcvtf lp d s1 p) lp d (fun s => cvtFV (fmtOf p) (s.rmOf lp) (s.fv lp (!p) s1)) s

/-- FCVTI (R116, R119). -/
def execFcvti (lp : LpId) (d s1 : Reg) (p : Bool) (s : State) : Out :=
  fpToG (.fcvti lp d s1 p) lp d (fun s => toIntFV (s.rmOf lp) (-(2 ^ 63)) (2 ^ 63 - 1) (s.fv lp p s1)) s

/-- FCVTIU (R116, R119). -/
def execFcvtiu (lp : LpId) (d s1 : Reg) (p : Bool) (s : State) : Out :=
  fpToG (.fcvtiu lp d s1 p) lp d (fun s => toIntFV (s.rmOf lp) 0 (2 ^ 64 - 1) (s.fv lp p s1)) s

/-- ICVTF (R116). -/
def execIcvtf (lp : LpId) (d s1 : Reg) (p : Bool) (s : State) : Out :=
  fpToF (.icvtf lp d s1 p) lp d (fun s => ofIntFV (fmtOf p) (s.rmOf lp) (s.g lp s1).toInt) s

/-- IUCVTF (R116). -/
def execIucvtf (lp : LpId) (d s1 : Reg) (p : Bool) (s : State) : Out :=
  fpToF (.iucvtf lp d s1 p) lp d (fun s => ofIntFV (fmtOf p) (s.rmOf lp) ((s.g lp s1).toNat : Int)) s

/-- MOVGF: all 64 bits (R116). -/
def execMovgf (lp : LpId) (d s1 : Reg) (s : State) : Out :=
  fpToF (.movgf lp d s1) lp d (fun s => (s.g lp s1, 0)) s

/-- MOVFG: all 64 bits (R116). -/
def execMovfg (lp : LpId) (d s1 : Reg) (s : State) : Out :=
  fpToG (.movfg lp d s1) lp d (fun s => (s.f lp s1, 0)) s

/-- PKA and PKS (R125 to R127): a data check names the first invalid nibble; an overflow sets FPSR.DOVF. -/
def packedOp (i : Instr) (lp : LpId) (d s1 s2 : Reg) (len : BitVec 5) (sub : Bool) (s : State) : Out :=
  runLp i lp 0 (do
    let s ← get
    let a := nibbles (s.g lp s1) (s.g lp (s1 + 1))
    let b := nibbles (s.g lp s2) (s.g lp (s2 + 1))
    match badNibble a, badNibble b with
    | some k, _ => raiseExc (excOf 0x08 k 0 0)
    | none, some k => raiseExc (excOf 0x08 (32 + k) 0 0)
    | none, none => do
      let y := decValue b len.toNat
      let ((lo, hi), ov) := decResult (decValue a len.toNat + (if sub then -y else y)) len.toNat
      let x := s.slip lp
      let v := setBits x.fpsr 13 13 1
      let s := if ov then (s.setSlip lp { x with fpsr := v, dirty := x.dirty ||| 16 }).item lp 0x04 1 [v] else s
      set ((s.setG lp d lo).setG lp (d + 1) hi)
      nextPc lp 1) s

/-- PKA (R125). -/
def execPka (lp : LpId) (d s1 s2 : Reg) (len : BitVec 5) (s : State) : Out :=
  packedOp (.pka lp d s1 s2 len) lp d s1 s2 len false s

/-- PKS (R125). -/
def execPks (lp : LpId) (d s1 s2 : Reg) (len : BitVec 5) (s : State) : Out :=
  packedOp (.pks lp d s1 s2 len) lp d s1 s2 len true s

end Sys2Proof.Machine
end

