-- ==== Sys2Proof/Machine/Integer.lean ====
section
/-! DEFINITION. Integer operations, immediates, multiply and divide, branches (R99 to R104). -/

namespace Sys2Proof.Machine

/-- ADD (R99). -/
def execAdd (lp : LpId) (d s1 s2 : Reg) (s : State) : Out :=
  aluRR (.add lp d s1 s2) lp d s1 s2 (fun a b => a + b) s

/-- SUB (R99). -/
def execSub (lp : LpId) (d s1 s2 : Reg) (s : State) : Out :=
  aluRR (.sub lp d s1 s2) lp d s1 s2 (fun a b => a - b) s

/-- AND (R99). -/
def execAnd (lp : LpId) (d s1 s2 : Reg) (s : State) : Out :=
  aluRR (.and lp d s1 s2) lp d s1 s2 (fun a b => a &&& b) s

/-- OR (R99). -/
def execOr (lp : LpId) (d s1 s2 : Reg) (s : State) : Out :=
  aluRR (.or lp d s1 s2) lp d s1 s2 (fun a b => a ||| b) s

/-- XOR (R99). -/
def execXor (lp : LpId) (d s1 s2 : Reg) (s : State) : Out :=
  aluRR (.xor lp d s1 s2) lp d s1 s2 (fun a b => a ^^^ b) s

/-- ANDN (R99). -/
def execAndn (lp : LpId) (d s1 s2 : Reg) (s : State) : Out :=
  aluRR (.andn lp d s1 s2) lp d s1 s2 (fun a b => a &&& ~~~ b) s

/-- SLL (R99). -/
def execSll (lp : LpId) (d s1 s2 : Reg) (s : State) : Out :=
  aluRR (.sll lp d s1 s2) lp d s1 s2 (fun a b => a <<< shAmt b) s

/-- SRL (R99). -/
def execSrl (lp : LpId) (d s1 s2 : Reg) (s : State) : Out :=
  aluRR (.srl lp d s1 s2) lp d s1 s2 (fun a b => a >>> shAmt b) s

/-- SRA (R99). -/
def execSra (lp : LpId) (d s1 s2 : Reg) (s : State) : Out :=
  aluRR (.sra lp d s1 s2) lp d s1 s2 (fun a b => a.sshiftRight (shAmt b)) s

/-- ROR (R99). -/
def execRor (lp : LpId) (d s1 s2 : Reg) (s : State) : Out :=
  aluRR (.ror lp d s1 s2) lp d s1 s2 (fun a b => rotr a (shAmt b)) s

/-- CMPEQ (R99). -/
def execCmpeq (lp : LpId) (d s1 s2 : Reg) (s : State) : Out :=
  aluRR (.cmpeq lp d s1 s2) lp d s1 s2 (fun a b => b2w (a == b)) s

/-- CMPLT (R99). -/
def execCmplt (lp : LpId) (d s1 s2 : Reg) (s : State) : Out :=
  aluRR (.cmplt lp d s1 s2) lp d s1 s2 (fun a b => b2w (a.slt b)) s

/-- CMPLTU (R99). -/
def execCmpltu (lp : LpId) (d s1 s2 : Reg) (s : State) : Out :=
  aluRR (.cmpltu lp d s1 s2) lp d s1 s2 (fun a b => b2w (a.ult b)) s

/-- SEXTB (R99). -/
def execSextb (lp : LpId) (d s1 : Reg) (s : State) : Out :=
  aluR (.sextb lp d s1) lp d s1 (fun a => (a.setWidth 8).signExtend 64) s

/-- SEXTH (R99). -/
def execSexth (lp : LpId) (d s1 : Reg) (s : State) : Out :=
  aluR (.sexth lp d s1) lp d s1 (fun a => (a.setWidth 16).signExtend 64) s

/-- SEXTW (R99). -/
def execSextw (lp : LpId) (d s1 : Reg) (s : State) : Out :=
  aluR (.sextw lp d s1) lp d s1 (fun a => (a.setWidth 32).signExtend 64) s

/-- CLZ (R99). -/
def execClz (lp : LpId) (d s1 : Reg) (s : State) : Out :=
  aluR (.clz lp d s1) lp d s1 (fun a => clzW a) s

/-- POPC (R99). -/
def execPopc (lp : LpId) (d s1 : Reg) (s : State) : Out :=
  aluR (.popc lp d s1) lp d s1 (fun a => popcW a) s

/-- MIN (R99). -/
def execMin (lp : LpId) (d s1 s2 : Reg) (s : State) : Out :=
  aluRR (.min lp d s1 s2) lp d s1 s2 (fun a b => if a.slt b then a else b) s

/-- MAX (R99). -/
def execMax (lp : LpId) (d s1 s2 : Reg) (s : State) : Out :=
  aluRR (.max lp d s1 s2) lp d s1 s2 (fun a b => if a.slt b then b else a) s

/-- MINU (R99). -/
def execMinu (lp : LpId) (d s1 s2 : Reg) (s : State) : Out :=
  aluRR (.minu lp d s1 s2) lp d s1 s2 (fun a b => if a.ult b then a else b) s

/-- MAXU (R99). -/
def execMaxu (lp : LpId) (d s1 s2 : Reg) (s : State) : Out :=
  aluRR (.maxu lp d s1 s2) lp d s1 s2 (fun a b => if a.ult b then b else a) s

/-- MUL (R103). -/
def execMul (lp : LpId) (d s1 s2 : Reg) (s : State) : Out :=
  aluRR (.mul lp d s1 s2) lp d s1 s2 (fun a b => a * b) s

/-- MULH (R103). -/
def execMulh (lp : LpId) (d s1 s2 : Reg) (s : State) : Out :=
  aluRR (.mulh lp d s1 s2) lp d s1 s2 (fun a b => mulHS a b) s

/-- MULHU (R103). -/
def execMulhu (lp : LpId) (d s1 s2 : Reg) (s : State) : Out :=
  aluRR (.mulhu lp d s1 s2) lp d s1 s2 (fun a b => mulHU a b) s

/-- DIV (R103, R104). -/
def execDiv (lp : LpId) (d s1 s2 : Reg) (s : State) : Out :=
  aluRR (.div lp d s1 s2) lp d s1 s2 (fun a b => divS a b) s

/-- DIVU (R103, R104). -/
def execDivu (lp : LpId) (d s1 s2 : Reg) (s : State) : Out :=
  aluRR (.divu lp d s1 s2) lp d s1 s2 (fun a b => divU a b) s

/-- REM (R103, R104). -/
def execRem (lp : LpId) (d s1 s2 : Reg) (s : State) : Out :=
  aluRR (.rem lp d s1 s2) lp d s1 s2 (fun a b => remS a b) s

/-- REMU (R103, R104). -/
def execRemu (lp : LpId) (d s1 s2 : Reg) (s : State) : Out :=
  aluRR (.remu lp d s1 s2) lp d s1 s2 (fun a b => remU a b) s

/-- ADDI, short and long form (R101). -/
def execAddi (lp : LpId) (d s1 : Reg) (imm : Imm) (s : State) : Out :=
  aluRI (.addi lp d s1 imm) lp d s1 (Imm.signed imm) (fun a b => a + b) s

/-- ANDI, short and long form (R101). -/
def execAndi (lp : LpId) (d s1 : Reg) (imm : Imm) (s : State) : Out :=
  aluRI (.andi lp d s1 imm) lp d s1 (Imm.unsigned imm) (fun a b => a &&& b) s

/-- ORI, short and long form (R101). -/
def execOri (lp : LpId) (d s1 : Reg) (imm : Imm) (s : State) : Out :=
  aluRI (.ori lp d s1 imm) lp d s1 (Imm.unsigned imm) (fun a b => a ||| b) s

/-- XORI, short and long form (R101). -/
def execXori (lp : LpId) (d s1 : Reg) (imm : Imm) (s : State) : Out :=
  aluRI (.xori lp d s1 imm) lp d s1 (Imm.unsigned imm) (fun a b => a ^^^ b) s

/-- LDI, short and long form (R101). -/
def execLdi (lp : LpId) (d : Reg) (imm : Imm) (s : State) : Out :=
  aluRI (.ldi lp d imm) lp d d (Imm.signed imm) (fun _ b => b) s

/-- SHI (R101). -/
def execShi (lp : LpId) (d s1 : Reg) (kind : BitVec 2) (amount : BitVec 6) (s : State) : Out :=
  aluR (.shi lp d s1 kind amount) lp d s1 (fun a => shiftBy kind.toNat a amount.toNat) s

/-- BR (R102). -/
def execBr (lp : LpId) (off : BitVec 21) (s : State) : Out := branchIf (.br lp off) lp off (fun _ => true) s

/-- BZ (R102). -/
def execBz (lp : LpId) (r : Reg) (off : BitVec 21) (s : State) : Out :=
  branchIf (.bz lp r off) lp off (fun s => s.g lp r == 0) s

/-- BNZ (R102). -/
def execBnz (lp : LpId) (r : Reg) (off : BitVec 21) (s : State) : Out :=
  branchIf (.bnz lp r off) lp off (fun s => s.g lp r != 0) s

/-- BLTZ (R102). -/
def execBltz (lp : LpId) (r : Reg) (off : BitVec 21) (s : State) : Out :=
  branchIf (.bltz lp r off) lp off (fun s => (s.g lp r).msb) s

/-- BGEZ (R102). -/
def execBgez (lp : LpId) (r : Reg) (off : BitVec 21) (s : State) : Out :=
  branchIf (.bgez lp r off) lp off (fun s => !(s.g lp r).msb) s

/-- BAL: the link is the branch's offset + 4 (R102). -/
def execBal (lp : LpId) (r : Reg) (off : BitVec 21) (s : State) : Out :=
  runLp (.bal lp r off) lp 0 (do
    let s ← get
    set (s.setG lp r ((s.slip lp).pc + 4))
    jumpTo lp (branchTarget (s.slip lp).pc off)) s

/-- JMP (R102, R85). -/
def execJmp (lp : LpId) (r : Reg) (s : State) : Out :=
  runLp (.jmp lp r) lp 0 (do
    let s ← get
    jumpTo lp (regTarget (s.g lp r))) s

/-- DBNZ: decrements, then branches if the new value is not 0 (R102). -/
def execDbnz (lp : LpId) (r : Reg) (off : BitVec 21) (s : State) : Out :=
  runLp (.dbnz lp r off) lp 0 (do
    let s ← get
    let v := s.g lp r - 1
    set (s.setG lp r v)
    if v ≠ 0 then jumpTo lp (branchTarget (s.slip lp).pc off) else nextPc lp 1) s

end Sys2Proof.Machine
end

