-- ==== Sys2Proof/Machine/Memory.lean ====
section
/-! DEFINITION. Loads and stores (R108 to R110), device accesses (R74, R298 to R302, R312) and the answers of devices. -/

namespace Sys2Proof.Machine

/-! ## Device accesses -/

/-- What a device access reaches (R28, R30, R74). -/
inductive DevTarget where
  | own (off : Nat)
  | main
  | window
  | out (doorbell : Bool)
  | pcie
  | bus
deriving DecidableEq, Repr

/-- Whether an offset of a PCIe window of this module reaches an endpoint: its root port's ECAM while a link of the port is UP, else the
bridge window of a link that is UP (R26, R27, R28, R446, R457).  Which bridge windows enumeration sets up the spec does not say
(log 52). -/
def State.pcieReaches (s : State) (off : Nat) : Bool :=
  let p := off / 0x4000000000
  let o := off % 0x4000000000
  (List.range 4).any (fun k => decide (s.regF (offPcie + 8 * (4 * p + k)) 2 0 = 3) &&
    (decide (o < 0x10000000) || Config.bridgeWindow (4 * p + k) o))

/-- The target of a device access by its first byte, at level `lvl`; an access of control space is one aligned doubleword (R33). -/
def State.devTarget (s : State) (lvl : BitVec 2) (a n : Nat) : DevTarget :=
  match regionOf a with
  | .ctl m off =>
    if n % 8 ≠ 0 ∨ off % 8 ≠ 0 then .bus
    else if m = s.pwr.modid.val then .own off
    else if s.inDeck m then .out (decide (offVcf 0 ≤ off ∧ off < offCmp 0)) else .bus
  | .pcie m off =>
    if m = s.pwr.modid.val then (if s.pcieReaches off then .pcie else .bus)
    else if s.inDeck m then .pcie else .bus
  | .main _ _ => .main
  | .landing _ _ => if s.pathOf false lvl a = .window then .window else .bus
  | .unmapped => .bus

/-- The PCIe root port, of whichever module, that an address lies at. -/
def rootPort (a : Nat) : Option Nat :=
  match regionOf a with
  | .pcie m off => some (4 * m + off / 0x4000000000)
  | _ => none

/-- Whether an offset is the low half of a 128-bit register (R312): RTU_NONCE, FLX_IP6 of a link. -/
def isLow128 (off : Nat) : Bool :=
  decide (off = offRtu + 0x20) ||
    (decide (offFlx 0 ≤ off ∧ off < offFlx 4) && (arrIdx 0x120 4 0x40 (off % 0x10000)).isSome)

/-- A load of control space by an LP (R312): outside harbour mode the low half of a 128-bit register latches the high one. -/
def State.ctlLoad (s : State) (lp : LpId) (off : Nat) : Option (Word × State) :=
  match s.busRead (.lp lp) off with
  | none => none
  | some (v, s') =>
    if s.harbour then some (v, s')
    else if isLow128 off then
      some (v, s'.setLpv lp { s'.lpv lp with latch128 := some (off + 8, s.regValue (.lp lp) (off + 8)) })
    else match (s.lpv lp).latch128 with
      | some (o, w) => if o = off then some (w, s.setLpv lp { s.lpv lp with latch128 := none }) else some (v, s')
      | none => some (v, s')

/-- A store to control space by an LP (R312): outside harbour mode the low half of a 128-bit register is staged. -/
def State.ctlStore (s : State) (lp : LpId) (off : Nat) (v : Word) : Option State :=
  if s.harbour then s.busWrite (.lp lp) off v
  else if isLow128 off then some (s.setLpv lp { s.lpv lp with stage128 := some (off + 8, v) })
  else match (s.lpv lp).stage128 with
    | some (o, w) =>
      if o = off then
        match (s.setLpv lp { s.lpv lp with stage128 := none }).busWrite (.lp lp) (off - 8) w with
        | some s => s.busWrite (.lp lp) off v
        | none => none
      else s.busWrite (.lp lp) off v
    | none => s.busWrite (.lp lp) off v

/-- Writes the register a device load names: 0 to 31 G, 32 to 63 F. -/
def State.putDst (s : State) (lp : LpId) (dst : Nat) (v : Word) : State :=
  if h : dst < 32 then s.setG lp ⟨dst, h⟩ v
  else if h : dst - 32 < 32 then s.setF lp ⟨dst - 32, h⟩ v
  else s

/-- A device access is over: the PC moves on, the instruction retires, what a load wrote enters the next window (R213). -/
def State.finishDev (s : State) (lp : LpId) (len : Nat) : State :=
  let s := ((s.setPc lp ((s.slip lp).pc + BitVec.ofNat 64 (4 * len))).retireLp lp).openWin lp none
  let v := s.lpv lp
  s.setLpv lp { v with win := v.win.map (fun w => { w with sig := foldItems w.sig v.items }), items := [] }

/-- A device access ends in an exception of its instruction. -/
def State.failDev (s : State) (lp : LpId) (iword : Word) (e : Exc) : State := s.takeException lp (excAt s lp e iword)

/-- The end of a device access's instruction (R212, R213, R302): the windows before it close and match, its own window holds it
alone and matches, the stores before it are performed, and only then the access is made; an injected mismatch runs a window again
instead.  `none`: a store before it waits for its line. -/
def finDevice (lp : LpId) (access : State → Option State) (s : State) : Option State :=
  let v := s.lpv lp
  let clear (s : State) := s.setLpv lp { s.lpv lp with items := [] }
  let access (s : State) : Option State := if s.released lp then access s else none
  if v.unchecked then access (clear s)
  else if s.retryDue lp then some ((clear s).syncWin lp 1)
  else
    let s := ((clear s).syncWin lp 1).openWin lp none
    let s := (s.setLpv lp { s.lpv lp with items := v.items }).retireWin lp
    if s.injectDue lp then some (s.syncWin lp 1) else access (s.syncWin lp 1)

/-- The parts of a device access: one, or the two doublewords of a pair, bytes 0 to 7 first (R110). -/
def devParts (a n : Nat) : List Nat := if n = 16 then [a, a + 8] else [a]

/-- Loads of control space of this module, one after the other. -/
def ctlLoads (lp : LpId) (finfo : Word) : List Nat → Act (List Byte)
  | [] => pure []
  | a :: r => do
    match (← get).ctlLoad lp (a % 0x100000000) with
    | none => raiseExc (excBus a finfo)
    | some (v, s) => do
      set s
      pure (wordBytes v ++ (← ctlLoads lp finfo r))

/-- Stores to control space of this module, one after the other. -/
def ctlStores (lp : LpId) (finfo : Word) : List Nat → List Byte → Act Unit
  | [], _ => pure ()
  | a :: r, d => do
    match (← get).ctlStore lp (a % 0x100000000) (leWord (d.take 8)) with
    | none => raiseExc (excBus a finfo)
    | some s => do
      set s
      ctlStores lp finfo r (d.drop 8)

/-- The pieces of an uncached access to main memory: those of its lines, or the two doublewords of a pair (R77, R110, R310). -/
def uncachedPieces (n : Nat) (l : List (Nat × Nat)) : List (Nat × Nat) :=
  if n = 16 then (devParts (l.headD (0, 0)).1 16).map (fun a => (a, 8)) else l

/-- Uncached reads of main memory, one after the other (R74, R268). -/
def uncachedLoads (finfo : Word) : List (Nat × Nat) → Act (List Byte)
  | [] => pure []
  | (a, n) :: r => do
    match (← get).readCur (a / 256) (a % 256) n with
    | .wait => throw .stall
    | .bus s => do set s; raiseExc (excBus a finfo)
    | .ok (d, f) s => do
      set s
      match f with
      | .poisoned => raiseExc (excPoison false a)
      | .mismatch => raiseExc (excPoison true a)
      | .good => pure (d ++ (← uncachedLoads (laterPiece finfo r) r))

/-- Uncached writes of main memory, one after the other (R74, R268). -/
def uncachedStores (finfo : Word) : List (Nat × Nat) → List Byte → Act Unit
  | [], _ => pure ()
  | (a, n) :: r, d => do
    match (← get).writePartial 999 (a / 256) (a % 256) (d.take n) with
    | .wait => throw .stall
    | .bus s => do set s; raiseExc (excBus a finfo)
    | .ok _ s => do
      set s
      uncachedStores (laterPiece finfo r) r (d.drop n)

/-- What a load leaves in its registers: `n` bytes from low to high, a pair in two registers (R108). -/
def State.putLoaded (s : State) (lp : LpId) (n dst : Nat) (d : List Byte) : State :=
  if n = 16 then (s.putDst lp dst (leWord (d.take 8))).putDst lp (dst + 1) (leWord (d.drop 8))
  else s.putDst lp dst (leWord d)

/-- A device access still to be answered: the fields all share. -/
def devAcc (a n dst : Nat) (d : List Byte) (level : BitVec 2) (posted : Bool) (len : Nat) (finfo iword : Word) : DevAcc :=
  { addr := a, size := n, dst := dst, pair := decide (n = 16), data := leWord (d.take 8), data2 := leWord (d.drop 8),
    level := level, posted := posted, len := len, finfo := finfo, iword := iword }

/-- An access to another module's window leaves over the causeway (R30, R274). -/
def State.sendAway (s : State) (a : Nat) : State :=
  let go (m : Nat) : State := if m = s.pwr.modid.val then s else s.sendTo m
  match regionOf a with
  | .ctl m _ => go m
  | .pcie m _ => go m
  | _ => s

/-- A device load is made (R74, R287, R298): control space of this module, its landing store and main memory answer at once, a PCIe
window or another module's window answers by DEVICE_LOAD_DATA. -/
def State.devLoad (s : State) (lp : LpId) (l : List (Nat × Nat)) (n dst len : Nat) (finfo iword : Word) : Option State :=
  let a := (l.headD (0, 0)).1
  let lvl := (s.slip lp).level
  let at1 (body : Act (List Byte)) : Option State :=
    match body.run s with
    | .ok d s => some ((s.putLoaded lp n dst d).finishDev lp len)
    | .error (.exc e) s => some (s.failDev lp iword e)
    | .error _ _ => none
  let outstanding : Option State :=
    let s := s.sendAway a
    some (s.setLpv lp { s.lpv lp with devLoad := some (devAcc a n dst [] lvl false len finfo iword) })
  match s.devTarget lvl a n with
  | .bus => at1 (raiseExc (excBus a finfo))
  | .own _ => at1 (ctlLoads lp finfo (devParts a n))
  | .main => at1 (uncachedLoads finfo (uncachedPieces n l))
  | .window => at1 (match s.lsPoison l with
    | some a => raiseExc (excPoison false a)
    | none => pure ((List.range n).map (fun i => s.lsByte ((a - 0xD000000000000) % 0x400000000 + i))))
  | .out _ => outstanding
  | .pcie => outstanding

/-- A device store is made (R74, R298 to R300): a posted one (EA = 1, except where R34 applies) retires as it leaves the twin. -/
def State.devStore (s : State) (lp : LpId) (ea : Bool) (l : List (Nat × Nat)) (d : List Byte) (len : Nat)
    (finfo iword : Word) : Option State :=
  let a := (l.headD (0, 0)).1
  let n := d.length
  let lvl := (s.slip lp).level
  let posted := ea && (match regionOf a with | .ctl _ off => decide (offVcf 0 ≤ off ∧ off < offCmp 0) | _ => true)
  let at1 (body : Act Unit) : Option State :=
    match body.run s with
    | .ok _ s => some (s.finishDev lp len)
    | .error (.exc e) s =>
      if posted then some ((s.defer lp lvl e.faddr.toNat e.finfo).finishDev lp len) else some (s.failDev lp iword e)
    | .error _ _ => none
  let send : Option State :=
    let s := s.sendAway a
    let acc := devAcc a n 64 d lvl posted len finfo iword
    if posted then
      let parts := if n = 16 then [{ acc with size := 8 }, { acc with addr := a + 8, size := 8, data := acc.data2 }] else [acc]
      some ((s.setLpv lp { s.lpv lp with posted := (s.lpv lp).posted ++ parts }).finishDev lp len)
    else some (s.setLpv lp { s.lpv lp with devStore := some acc })
  match s.devTarget lvl a n with
  | .bus => at1 (raiseExc (excBus a finfo))
  | .own _ => at1 (ctlStores lp finfo (devParts a n) d)
  | .main => at1 (uncachedStores finfo (uncachedPieces n l) d)
  | .window => at1 (modify (fun s => s.lsStore ((a - 0xD000000000000) % 0x400000000) d))
  | .out _ => send
  | .pcie => send

/-! ## Loads and stores -/

/-- The check of a pair's offset (R109). -/
def pairAligned (bank : BankNo) (o : Word) (n : Nat) (k : AKind) : Act Unit :=
  require (decide (n ≠ 16 ∨ o.toNat % 16 = 0)) (excOf 0x03 0 o (finfoOf bank.val k (sizeCode k n) n 0 0 false))

/-- Whether a formed access through a bank is a device access (R74). -/
def State.isDevice (s : State) (lp : LpId) (bank : BankNo) (l : List (Nat × Nat)) : Bool :=
  (s.firstDevice ((s.slip lp).b.get bank).dev (s.slip lp).level 0 l).isSome

/-- A load of `n` bytes into register `dst` (0 to 31 G, 32 to 63 F) or, of 16 bytes, a pair (R108 to R110): a device access (R74) is
made as the instruction ends, any other in its body. -/
def loadForm (i : Instr) (lp : LpId) (base : Reg) (bank : BankNo) (disp : Disp) (n dst : Nat) (s : State) : Out :=
  let fi := finfoOf bank.val .read (sizeCode .read n) n 0 0 false
  let words := (encode i).length
  .next (s.runWith lp words (iwordOf i) 0 (do
      issueCheck i lp
      let s ← get
      let o := memOffset (s.g lp base) n disp
      pairAligned bank o n .read
      let l ← liftExc (s.formAccess lp bank o n .read (sizeCode .read n))
      if s.isDevice lp bank l then pure (some l)
      else do
        let d ← readFormed lp bank o fi (s.asMade n l)
        modify (fun s => s.putLoaded lp n dst d)
        nextPc lp words
        pure none)
    (fun dev s => match dev with
      | some l => finDevice lp (fun s => s.devLoad lp l n dst words fi (iwordOf i)) s
      | none => some (s.retire lp)))

/-- A store of bytes `data` gives (R108 to R110); EA counts only with DEV (R68). -/
def storeForm (i : Instr) (lp : LpId) (base : Reg) (bank : BankNo) (disp : Disp) (n : Nat) (data : State → List Byte) (s : State) :
    Out :=
  let fi := finfoOf bank.val .write (sizeCode .write n) n 0 0 false
  let words := (encode i).length
  .next (s.runWith lp words (iwordOf i) 2 (do
      issueCheck i lp
      let s ← get
      let o := memOffset (s.g lp base) n disp
      pairAligned bank o n .write
      let l ← liftExc (s.formAccess lp bank o n .write (sizeCode .write n))
      if s.isDevice lp bank l then do
        modify (fun s => s.item lp 0x10 n (storeItemWords (l.headD (0, 0)).1 (data s)))
        pure (some (l, data s))
      else do
        storeFormed lp bank o fi (s.asMade n l) (data s)
        nextPc lp words
        pure none)
    (fun dev s => match dev with
      | some (l, d) =>
        let b := (s.slip lp).b.get bank
        finDevice lp (fun s => s.devStore lp (b.dev && b.ea) l d words fi (iwordOf i)) s
      | none => some (s.retire lp)))

/-- The low `n` bytes of a register. -/
def lowBytes (v : Word) (n : Nat) : List Byte := (wordBytes v).take n

/-- LDB (R108). -/
def execLdb (lp : LpId) (t base : Reg) (bank : BankNo) (disp : Disp) (s : State) : Out :=
  loadForm (.ldb lp t base bank disp) lp base bank disp 1 t.val s

/-- LDH (R108). -/
def execLdh (lp : LpId) (t base : Reg) (bank : BankNo) (disp : Disp) (s : State) : Out :=
  loadForm (.ldh lp t base bank disp) lp base bank disp 2 t.val s

/-- LDW (R108). -/
def execLdw (lp : LpId) (t base : Reg) (bank : BankNo) (disp : Disp) (s : State) : Out :=
  loadForm (.ldw lp t base bank disp) lp base bank disp 4 t.val s

/-- LDD (R108). -/
def execLdd (lp : LpId) (t base : Reg) (bank : BankNo) (disp : Disp) (s : State) : Out :=
  loadForm (.ldd lp t base bank disp) lp base bank disp 8 t.val s

/-- STB (R108). -/
def execStb (lp : LpId) (t base : Reg) (bank : BankNo) (disp : Disp) (s : State) : Out :=
  storeForm (.stb lp t base bank disp) lp base bank disp 1 (fun s => lowBytes (s.g lp t) 1) s

/-- STH (R108). -/
def execSth (lp : LpId) (t base : Reg) (bank : BankNo) (disp : Disp) (s : State) : Out :=
  storeForm (.sth lp t base bank disp) lp base bank disp 2 (fun s => lowBytes (s.g lp t) 2) s

/-- STW (R108). -/
def execStw (lp : LpId) (t base : Reg) (bank : BankNo) (disp : Disp) (s : State) : Out :=
  storeForm (.stw lp t base bank disp) lp base bank disp 4 (fun s => lowBytes (s.g lp t) 4) s

/-- STD (R108). -/
def execStd (lp : LpId) (t base : Reg) (bank : BankNo) (disp : Disp) (s : State) : Out :=
  storeForm (.std lp t base bank disp) lp base bank disp 8 (fun s => lowBytes (s.g lp t) 8) s

/-- LDFS: 4 bytes, bits 63:32 become 0 (R108). -/
def execLdfs (lp : LpId) (t base : Reg) (bank : BankNo) (disp : Disp) (s : State) : Out :=
  loadForm (.ldfs lp t base bank disp) lp base bank disp 4 (32 + t.val) s

/-- LDF (R108). -/
def execLdf (lp : LpId) (t base : Reg) (bank : BankNo) (disp : Disp) (s : State) : Out :=
  loadForm (.ldf lp t base bank disp) lp base bank disp 8 (32 + t.val) s

/-- STFS (R108). -/
def execStfs (lp : LpId) (t base : Reg) (bank : BankNo) (disp : Disp) (s : State) : Out :=
  storeForm (.stfs lp t base bank disp) lp base bank disp 4 (fun s => lowBytes (s.f lp t) 4) s

/-- STF (R108). -/
def execStf (lp : LpId) (t base : Reg) (bank : BankNo) (disp : Disp) (s : State) : Out :=
  storeForm (.stf lp t base bank disp) lp base bank disp 8 (fun s => lowBytes (s.f lp t) 8) s

/-- LDPAIR (R108 to R110). -/
def execLdpair (lp : LpId) (t base : Reg) (bank : BankNo) (disp : Disp) (s : State) : Out :=
  loadForm (.ldpair lp t base bank disp) lp base bank disp 16 t.val s

/-- STPAIR (R108 to R110). -/
def execStpair (lp : LpId) (t base : Reg) (bank : BankNo) (disp : Disp) (s : State) : Out :=
  storeForm (.stpair lp t base bank disp) lp base bank disp 16
    (fun s => wordBytes (s.g lp t) ++ wordBytes (s.g lp (Reg.succ t))) s

/-! ## The answers of devices -/

/-- Whether an LP's device accesses can be answered: it exists and the main domain runs. -/
def State.devAlive (s : State) (lp : LpId) : Bool :=
  decide (lp.val < s.lpCount) && (s.mainOn || decide (s.pwr.phase = .landing))

/-- The access an LP waits for ends in BUS_PRECISE (R298, R300). -/
def State.devBus (s : State) (lp : LpId) (d : DevAcc) : State :=
  (s.setLpv lp { s.lpv lp with devLoad := none, devStore := none }).failDev lp d.iword (excBus d.addr d.finfo)

/-- A posted store leaves the list; a bus error is recorded against the LP (R144). -/
def State.postedDone (s : State) (lp : LpId) (k : Nat) (d : DevAcc) (error : Bool) : State :=
  let s := s.setLpv lp { s.lpv lp with posted := (s.lpv lp).posted.eraseIdx k }
  if error then s.defer lp d.level d.addr d.finfo else s

/-- Whether an access at a PCIe root port still comes after posted stores of the LP to the same port, of which `l` are the earlier ones
outstanding: there the rules of PCIe keep their order (R301). -/
def portBehind (l : List DevAcc) (a : Nat) : Bool :=
  (rootPort a).isSome && l.any (fun d => decide (rootPort d.addr = rootPort a))

/-- DEVICE_STORE_COMPLETION (R298 to R301): of the k-th oldest posted store, or of the store the LP waits for; a completion after
its store was dropped is discarded and logged (R299).  At one root port completions come in order. -/
def execDeviceStoreCompletion (lp : LpId) (posted : Option Nat) (busError : Bool) (s : State) : Out :=
  .next (
    let v := s.lpv lp
    if ¬ s.devAlive lp then s
    else match posted with
    | some k =>
      match v.posted[k]? with
      | some d => if portBehind (v.posted.take k) d.addr then s else s.postedDone lp k d busError
      | none => s.report 0x216
    | none =>
      match v.devStore with
      | none => s
      | some d =>
        if portBehind v.posted d.addr then s
        else if busError then s.devBus lp d
        else if d.pair then
          s.setLpv lp { v with devStore := some { d with addr := d.addr + 8, data := d.data2, pair := false } }
        else (s.setLpv lp { v with devStore := none }).finishDev lp d.len)

/-- DEVICE_LOAD_DATA (R287, R301): the data's low bytes, zero-extended (R108); a pair's halves come one after the other (R110). -/
def execDeviceLoadData (lp : LpId) (data : Word) (busError : Bool) (s : State) : Out :=
  .next (
    if ¬ s.devAlive lp then s
    else match (s.lpv lp).devLoad with
    | none => s
    | some d =>
      if portBehind (s.lpv lp).posted d.addr then s
      else if busError then s.devBus lp d
      else if d.pair then
        s.setLpv lp { s.lpv lp with devLoad := some { d with addr := d.addr + 8, data := data, pair := false } }
      else
        let bytes := if d.size = 16 then wordBytes d.data ++ wordBytes data else lowBytes data d.size
        ((s.setLpv lp { s.lpv lp with devLoad := none }).putLoaded lp d.size d.dst bytes).finishDev lp d.len)

/-- POSTED_STORE_TIMEOUT (R299): the oldest posted store is dropped, logged and recorded against the LP. -/
def execPostedStoreTimeout (lp : LpId) (s : State) : Out :=
  .next (
    if ¬ s.devAlive lp then s
    else match (s.lpv lp).posted with
    | [] => s
    | d :: _ => (s.postedDone lp 0 d true).report 0x216)

/-- DEVICE_ACCESS_TIMEOUT (R300): the access the LP waits for raises BUS_PRECISE. -/
def execDeviceAccessTimeout (lp : LpId) (s : State) : Out :=
  .next (
    if ¬ s.devAlive lp then s
    else match (s.lpv lp).devLoad, (s.lpv lp).devStore with
    | some d, _ => s.devBus lp d
    | none, some d => s.devBus lp d
    | none, none => s)

end Sys2Proof.Machine
end

