-- ==== Sys2Proof/Machine/Micro.lean ====
section
/-! DEFINITION. The micro-sequencer (R181 to R205): one microword at a time, and the rows CUSTOM_INSTRUCTION,
FORERUNNER_INSTRUCTION, WAIT_ON_TIMER and UNDEFINED_INSTRUCTION. -/

namespace Sys2Proof.Machine

/-! ## The fields of a word (R181) -/

/-- DST. -/
def ucDst (w : BitVec 128) : Nat := ub w 5 0
/-- DEN. -/
def ucDen (w : BitVec 128) : Bool := decide (ub w 6 6 = 1)
/-- SRCA. -/
def ucA (w : BitVec 128) : Nat := ub w 12 7
/-- SRCB. -/
def ucB (w : BitVec 128) : Nat := ub w 18 13
/-- ALU. -/
def ucAlu (w : BitVec 128) : Nat := ub w 23 20
/-- MEM. -/
def ucMem (w : BitVec 128) : Nat := ub w 35 32
/-- MD. -/
def ucMd (w : BitVec 128) : Nat := ub w 43 41
/-- SEQ. -/
def ucSeq (w : BitVec 128) : Nat := ub w 47 44
/-- COND. -/
def ucCond (w : BitVec 128) : Nat := ub w 51 48
/-- LLEN. -/
def ucLlen (w : BitVec 128) : Nat := ub w 57 52
/-- GSEL. -/
def ucGsel (w : BitVec 128) : Nat := ub w 60 59
/-- GDIR. -/
def ucGdir (w : BitVec 128) : Bool := decide (ub w 61 61 = 1)
/-- TARGET. -/
def ucTarget (w : BitVec 128) : Nat := ub w 79 64
/-- IMM, sign-extended. -/
def ucImm (w : BitVec 128) : Word := (BitVec.ofNat 32 (ub w 111 80)).signExtend 64

/-- The G register GSEL names in an instruction word (R181). -/
def ucGreg (w : BitVec 128) (iw : BitVec 32) : Reg :=
  Fin.ofNat 32 (iw.toNat >>> (if ucGsel w = 1 then 21 else if ucGsel w = 2 then 16 else 11))

/-- What a WAIT's condition waits for, as `Micro.out` numbers it: 0 load, 1 multiply, 2 divide. -/
def ucWaitKind (w : BitVec 128) : Option Nat :=
  if ucCond w = 0 then some 0 else if ucCond w = 2 then some 1 else if ucCond w = 3 then some 2 else none

/-- Whether the flags satisfy a BRC's COND (R184); the flags are Z, N, C in bits 0, 1, 2. -/
def ucHolds (f : BitVec 3) (c : Nat) : Bool :=
  if c < 2 then f.getLsbD 0 == decide (c = 0)
  else if c < 4 then f.getLsbD 1 == decide (c = 2)
  else f.getLsbD 2 == decide (c = 4)

/-- The flags a branch sees: a sync word sees the word just before it (R187). -/
def Micro.seen (m : Micro) (sync : Bool) : BitVec 3 := if sync then m.pendFlags.getD m.flags else m.flags

/-- A sync word (R187). -/
def Micro.sync (m : Micro) (w : BitVec 128) : Bool := ucIsWait w || decide (ucMem w ≠ 0) || m.periodic

/-! ## Micro-illegal words (R200) -/

/-- The loop whose last two words the next word is one of (R192). -/
def Micro.loopEnd (m : Micro) : Bool :=
  m.loops.any (fun l => decide (l.2.1 ≤ m.upc ∧ m.upc ≤ l.2.1 + l.2.2 ∧ l.2.1 + l.2.2 ≤ m.upc + 1))

/-- Whether a word's BR, or BRC whose condition holds, is taken. -/
def Micro.taken (m : Micro) (w : BitVec 128) : Bool :=
  decide (ucSeq w = 1) || (decide (ucSeq w = 2) && ucHolds (m.seen (m.sync w)) (ucCond w))

/-- The format of the routine's instruction (R202); a forerunner routine's words name every field. -/
def State.ucFormat (s : State) (m : Micro) : Nat :=
  if m.kind then 0 else bits (s.reg (offUc + 0x400 + 8 * m.entry.toNat)) 7 4

/-- Why a word is micro-illegal, the lowest cause first; `none` when it issues (R182 to R192, R200). -/
def State.ucIllegal (s : State) (m : Micro) (w : BitVec 128) : Option Nat :=
  let seq := ucSeq w
  let ends := seq = 1 ∨ seq = 2 ∨ seq = 5
  let t := ucTarget w
  if m.slot.isSome ∧ (ends ∨ seq = 3) then some 1
  else if 0xB ≤ ucAlu w ∨ 7 ≤ ucMem w ∨ 5 ≤ ucMd w ∨ 6 ≤ seq ∨ ((seq = 2 ∨ seq = 4) ∧ 6 ≤ ucCond w) ∨
      ub w 63 62 ≠ 0 ∨ ub w 127 112 ≠ 0 ∨ (ucDen w ∧ (ucMem w ≠ 0 ∨ ucMd w ≠ 0)) then some 2
  else if ¬ m.kind ∧ (48 ≤ ucDst w ∨ 48 ≤ ucA w ∨ 48 ≤ ucB w) then some 3
  else if m.kind ∧ m.taken w ∧ 0x8800 ≤ t ∧ t < 0xC000 then some 4
  else if ¬ m.kind ∧ (seq = 1 ∨ seq = 2) ∧ ¬ (0x8400 ≤ t ∧ t < 0x8800) then some 4
  else if seq = 3 ∧ (2 ≤ m.loops.length ∨ m.loops.any (fun l => decide (l.2.1 + l.2.2 ≤ m.upc + 1 + ucLlen w))) then some 5
  else if (ends ∧ m.loopEnd) ∨ (seq = 5 ∧ m.loops ≠ []) then some 6
  else if (m.out.isSome ∧ ¬ (seq = 4 ∧ ucWaitKind w = m.out.map (·.1)) ∧ (ucMem w ≠ 0 ∨ ucMd w ≠ 0 ∨ seq = 5 ∨ seq = 4)) ∨
      (1 ≤ ucMem w ∧ ucMem w ≤ 3 ∧ ucMd w ≠ 0) ∨ (m.storeOut ∧ ¬ (seq = 4 ∧ ucCond w = 1) ∧ 4 ≤ ucMem w) then some 7
  else if (ucGsel w = 3 ∧ s.ucFormat m ≠ 0) ∨ (ucGsel w ≠ 0 ∧ s.ucFormat m = 2) then some 8
  else none

/-! ## One word -/

/-- The ALU result before the shift, with its carry (R182). -/
def ucAluOp (op : Nat) (a b : Word) : Word × Bool :=
  if op = 1 then (a + b, decide (2 ^ 64 ≤ a.toNat + b.toNat))
  else if op = 2 then (a - b, decide (a.toNat < b.toNat))
  else if op = 3 then (a &&& b, false)
  else if op = 4 then (a ||| b, false)
  else if op = 5 then (a ^^^ b, false)
  else if op = 6 then (a &&& ~~~ b, false)
  else if op = 7 then (a, false)
  else if op = 8 then (b2w (decide (a.toNat < b.toNat)), false)
  else if op = 9 then (clzW a, false)
  else (popcW a, false)

/-- SHOP by SHAMT (R181). -/
def ucShift (w : BitVec 128) (v : Word) : Word :=
  let n := ub w 31 26
  if ub w 25 24 = 1 then v <<< n else if ub w 25 24 = 2 then v >>> n else if ub w 25 24 = 3 then rotr v n else v

/-- The multiply or divide of a word (R181, R183, R104). -/
def ucMdOp (w : BitVec 128) (a b : Word) : Word :=
  if ucMd w = 1 then a * b else if ucMd w = 2 then mulHU a b else if ucMd w = 3 then divU a b else remU a b

/-- The size of a memory word (R183). -/
def ucMemSize (mem : Nat) : Nat := if mem = 1 ∨ mem = 4 then 1 else if mem = 2 ∨ mem = 5 then 4 else 8

/-- The bank of a memory word (R181). -/
def ucBank (w : BitVec 128) (iw : BitVec 32) : BankNo :=
  Fin.ofNat 16 (if ub w 40 40 = 1 then iw.toNat >>> 12 else ub w 39 36)

/-- The memory part of a word (R183): a load's value, none for a store. -/
def ucAccess (lp : LpId) (w : BitVec 128) (iw : BitVec 32) : Act (Option Word) := do
  let s ← get
  let n := ucMemSize (ucMem w)
  let bank := ucBank w iw
  let o := s.u lp (ucA w)
  if ucMem w < 4 then do
    let d ← loadBytes lp bank o n .read (sizeCode .read n)
    pure (some (leWord d))
  else do
    let fi := finfoOf bank.val .write (sizeCode .write n) n 0 0 false
    let l ← liftExc (s.formAccess lp bank o n .write (sizeCode .write n))
    requireNoDevice lp bank fi l
    storeFormed lp bank o fi l ((wordBytes (s.u lp (ucB w))).take n)
    pure none

/-- The loops a branch to `t` leaves active (R192). -/
def loopsAt (loops : List (Nat × Nat × Nat)) (t : Nat) : List (Nat × Nat × Nat) :=
  loops.filter (fun l => decide (l.2.1 ≤ t ∧ t ≤ l.2.1 + l.2.2))

/-- Where the routine goes after the word at UPC when no branch is pending (R192): the address and the loops; `up` is the address after the
word issued. -/
def Micro.after (m : Micro) (up : Nat) (loops : List (Nat × Nat × Nat)) : Nat × List (Nat × Nat × Nat) :=
  match loops with
  | (c, st, ll) :: r =>
    if m.upc = st + ll then (if 1 < c then (st, (c - 1, st, ll) :: r) else (up, r)) else (up, loops)
  | [] => (up, [])

/-- The sequencer part of a word issued from address `a` (R177, R184, R190, R192): the next address, pending continuation and loops; `none`
after the delay slot of END.  `count` is the count of a LOOPB.  The spec does not say what follows address 0xFFFF: DESIGN CHOICE, log 58,
address 0. -/
def Micro.next (m : Micro) (a : Nat) (w : BitVec 128) (count : Nat) : Option (Nat × Option Nat × List (Nat × Nat × Nat)) :=
  let up := (a + 1) % 65536
  match m.slot with
  | some t => if t = ucEndMark then none else some (t, none, loopsAt m.loops t)
  | none =>
    let seq := ucSeq w
    if seq = 1 ∨ seq = 2 then
      some (up, some (if m.taken w then ucTarget w else (up + 1) % 65536), m.loops)
    else if seq = 5 then some (up, some ucEndMark, m.loops)
    else if seq = 3 then some (up, none, ((if count = 0 then 65536 else count), up, ucLlen w) :: m.loops)
    else let r := m.after up m.loops
         some (r.1, none, r.2)

/-- How a word leaves the routine: it goes on, it is done, it stands where it was for now, or the instruction has ended
otherwise. -/
inductive UcOut where
  | go (m : Micro) (s : State)
  | done (s : State)
  | stay (m : Micro) (s : State)
  | left (s : State)

/-- The routine is over (R184, R204).  The spec does not say what becomes of a load, multiply or divide that the delay slot issued: DESIGN
CHOICE, log 58, it is written as the routine ends.  Its results are written, the PC moves on, the instruction retires, and its window closes if
its entry says so (R201). -/
def State.ucEnd (s : State) (lp : LpId) (m : Micro) : State :=
  let (s, m) := s.ucCommit lp m
  let (s, m) := s.ucLand lp m
  let s := s.setLpv lp { s.lpv lp with micro := none }
  let s := (s.setPc lp ((s.slip lp).pc + 4)).retire lp
  if ¬ m.kind ∧ bit (s.reg (offUc + 0x400 + 8 * m.entry.toNat)) 3 then s.closeWin lp 7 else s

/-- The routine is abandoned at a micro-illegal word (R200): ILLEGAL at its instruction.  What a retry would undo is not
recorded (R213). -/
def State.ucAbandon (s : State) (lp : LpId) (m : Micro) (cause : Nat) (iword : Word) : State :=
  let upc := m.upc
  let (s, m) := s.ucCommit lp m
  let (s, m) := s.ucLand lp m
  let s := if s.injectDue lp ∧ ¬ (s.lpv lp).unchecked then s else s.ucFault lp cause upc m.entry.toNat
  let s := (s.setLpv lp { s.lpv lp with micro := none }).clearActive lp
  s.takeException lp (excAt s lp excIllegal iword)

/-- Whether the window must close at the routine's trap point (R214): its entries could not take another store, or it has had
4,096 words. -/
def State.ucWindowFull (s : State) (lp : LpId) : Bool :=
  match (s.lpv lp).win with
  | some w => decide (128 < sectorCount w.stores + 2 ∨ 4096 ≤ w.words)
  | none => false

/-- A window opens on the routine's micro-state as a trap records it (R214). -/
def State.ucOpenWin (s : State) (lp : LpId) (m : Micro) : State :=
  let x := s.slip lp
  ((s.ucRecord lp m).openWin lp none).setSlip lp x

/-- The window closes at a trap point and the next one opens there (R214). -/
def State.ucNewWindow (s : State) (lp : LpId) (m : Micro) : State × Micro :=
  let (s, m) := s.ucCommit lp m
  let (s, m) := s.ucLand lp m
  let s0 := s.closeWin lp 10
  if s.retriedTo s0 lp then (s0, m) else (s0.ucOpenWin lp m, m)

/-- Whether the word issued from a micro-address has an uncorrectable error in a control store of the LP's twin (R176). -/
def State.ucBad (s : State) (lp : LpId) (a : Nat) : Bool := s.vol.badWords.contains ((s.lp lp).twin.val, a)

/-- A word with an uncorrectable error does not issue (R176): the current window mismatches, once the window before it has matched. -/
def State.ucBadWord (s : State) (lp : LpId) : State :=
  let s1 := s.matchClosed lp
  if s.retriedTo s1 lp then s1 else s1.winFails lp

/-- The word issues: its memory part has been done, `v` is the value of its load (R181 to R192). -/
def State.ucIssue (s : State) (lp : LpId) (m : Micro) (w : BitVec 128) (v : Option Word) : UcOut :=
  let sync := m.sync w
  let count := if ub w 58 58 = 1 then ub w 95 80 else (s.u lp (ucA w)).toNat % 65536
  let a := if ucGsel w ≠ 0 ∧ ¬ ucGdir w then s.g lp (ucGreg w m.word) else s.u lp (ucA w)
  let b := if ub w 19 19 = 1 then ucImm w else s.u lp (ucB w)
  let (r, c) := ucAluOp (ucAlu w) a b
  let res := ucShift w r
  let some? := decide (ucAlu w ≠ 0)
  let dst : Fin 64 := Fin.ofNat 64 (ucDst w)
  let next := m.next (s.ucFetch m.kind m.upc) w count
  let md := ucMdOp w (s.u lp (ucA w)) (s.u lp (ucB w))
  let (s, m) := if sync then (s, m) else s.ucCommit lp m
  let m : Micro :=
    { m with
      pendU := if some? && ucDen w then some (dst, res) else none
      pendG := if some? && decide (ucGsel w ≠ 0) && ucGdir w then some (ucGreg w m.word, res) else none
      pendFlags := if some? then
          some (BitVec.ofNat 3 (b2n (decide (res = 0)) + 2 * b2n (bit res 63) + 4 * b2n c)) else none
      out := match v with
        | some x => some (0, dst, x)
        | none => if ucMd w = 0 then m.out else some (if ucMd w ≤ 2 then 1 else 2, dst, md)
      storeOut := (m.storeOut && !(ucIsWait w && decide (ucCond w = 1))) || decide (4 ≤ ucMem w)
      since := if sync then 0 else if m.out.isSome then m.since else m.since + 1 }
  let s := s.countLp lp 0x0E 1
  let s := s.setLpv lp { s.lpv lp with win := (s.lpv lp).win.map (fun x => { x with words := x.words + 1 }) }
  match next with
  | none => .done (s.ucEnd lp m)
  | some (upc, slot, loops) => .go { m with upc := upc, slot := slot, loops := loops } s

/-- The wait of a WAIT word (R185): on EVT the task's wake bit, on TIMER the timebase; the other conditions hold once the result
they wait for is written. -/
def State.ucReady (s : State) (lp : LpId) (w : BitVec 128) : Bool :=
  if ucCond w = 4 then s.wakeWaits lp
  else if ucCond w = 5 then decide ((s.u lp (ucA w)).toNat ≤ s.live.time.toNat)
  else true

/-- A WAIT on EVT finds no wake (R185): the routine is interrupted at it, and the task waits. -/
def State.ucWaitEvt (s : State) (lp : LpId) (m : Micro) : State :=
  if s.retryDue lp then (s.setLpv lp { s.lpv lp with items := [] }).syncWin lp 9
  else (s.ucTrap lp m).waitHere lp 9

/-- A WAIT on EVT consumes the wake as it issues (R185); its window keeps it for a retry. -/
def State.ucTakeWake (s : State) (lp : LpId) : State :=
  let k := (s.lp lp).run
  let t := (s.slip lp).task.toNat
  let s := s.takeWake lp
  s.setLpv lp { s.lpv lp with win := (s.lpv lp).win.map (fun x => { x with took := x.took ++ [(k, t)] }) }

/-- A word that stands to issue performs its parts together (R181): its memory part first, whose faults interrupt the routine at it
(R195, R196). -/
def State.ucPerform (s : State) (lp : LpId) (m : Micro) (w : BitVec 128) (iword : Word) : UcOut :=
  let wake (s : State) : State := if ucIsWait w ∧ ucCond w = 4 then s.ucTakeWake lp else s
  if ucMem w = 0 then (wake s).ucIssue lp m w none
  else match (ucAccess lp w m.word).run s with
    | .error (.exc e) s1 =>
      let s2 := s1.ucTrap lp m
      .left (s2.takeException lp (excAt s2 lp e iword))
    | .error _ _ => .stay m s
    | .ok v s1 => (wake s1).ucIssue lp m w v

/-- The word at UPC issues, or the routine is interrupted, abandoned or held there (R181 to R200). -/
def State.ucStep (s : State) (lp : LpId) (m : Micro) (iword : Word) : UcOut :=
  let w := s.ucNextWord m
  let trap := s.ucTrapPoint m
  if trap ∧ s.boundaryDue lp then .stay m s
  else
    let (s1, m) := if trap ∧ s.ucWindowFull lp then s.ucNewWindow lp m else (s, m)
    if s.retriedTo s1 lp then .left s1
    else if s1.ucBad lp (s1.ucFetch m.kind m.upc) then
      (if (s1.lpv lp).win.isSome then .left (s1.ucBadWord lp) else .stay m s1)
    else match s1.ucIllegal m w with
    | some c => .left (s1.ucAbandon lp m c iword)
    | none =>
      let (s2, m2) := if m.sync w then s1.ucCommit lp m else (s1, m)
      if ucIsWait w then
        let (s3, m3) := if (ucWaitKind w).isSome then s2.ucLand lp m2 else (s2, m2)
        let s3 := if ucCond w = 4 ∨ ucCond w = 5 then s3.laneItem lp 3 [BitVec.ofNat 8 (b2n (s3.ucReady lp w))] else s3
        if s3.ucReady lp w then s3.ucPerform lp m3 w iword
        else if ucCond w = 4 then .left (s3.ucWaitEvt lp m3)
        else .stay m3 s3
      else s2.ucPerform lp m2 w iword

/-- Issues up to `n` words; a routine not done stands at its next word for a later command. -/
def ucRun (lp : LpId) (iword : Word) : Nat → Micro → State → State
  | 0, m, s => s.setLpv lp { s.lpv lp with micro := some m }
  | n + 1, m, s =>
    match s.ucStep lp m iword with
    | .go m s => ucRun lp iword n m s
    | .done s => s
    | .stay m s => s.setLpv lp { s.lpv lp with micro := some m }
    | .left s => s

/-! ## Entering a routine -/

/-- A routine at its first word.  The spec does not say what the flags Z, N and C are there, or at a resumption, which saves none: DESIGN
CHOICE, log 58, they are 0. -/
def Micro.enter (word : BitVec 32) (kind : Bool) (entry : BitVec 4) (upc : Nat) : Micro :=
  { word := word, kind := kind, entry := entry, upc := upc, slot := none, loops := [], flags := 0, pendFlags := none,
    pendU := none, pendG := none, out := none, storeOut := false, since := 0 }

/-- A loop level a trap saved (R198). -/
def loopOf (w : Word) : Nat × Nat × Nat := (bits w 16 0, bits w 47 32, bits w 53 48)

/-- The checks of R199 on the saved micro-state of a slip. -/
def Slip.resumable (x : Slip) (kind : Bool) (entry : Nat) : Bool :=
  let u := x.ustate
  let upc := bits u 15 0
  let d := bits u 19 18
  (bit u 24 == kind) && decide (kind ∨ bits u 23 20 = entry) &&
    (if kind then decide (0xC000 ≤ upc) else decide (0x8400 ≤ upc ∧ upc < 0x8800)) && decide (d ≤ 2) &&
    decide (1 ≤ d → bits x.uloop0 16 0 ≠ 0) && decide (2 ≤ d → bits x.uloop1 16 0 ≠ 0)

/-- The routine as its saved micro-state resumes it (R199).  `w` is the word it resumes at: one that is a trap point by its count alone
was the periodic word, and is again (R195).  DTARGET 0xFFFF reads as END (R196). -/
def Slip.resumed (x : Slip) (word : BitVec 32) (kind : Bool) (w : BitVec 128) : Micro :=
  let u := x.ustate
  let d := bits u 19 18
  let t := bits u 47 32
  { Micro.enter word kind (BitVec.ofNat 4 (bits u 23 20)) (bits u 15 0) with
    slot := if bit u 17 then some (if t = 0xFFFF then ucEndMark else t) else none
    since := if ucIsWait w ∨ ucMem w ≠ 0 then 0 else 63
    loops := (if d = 2 then [loopOf x.uloop1] else []) ++ (if 1 ≤ d then [loopOf x.uloop0] else []) }

/-- U0 to U47 are cleared and U15 takes bits 10:4 of the instruction at the entry of a customer routine (R193). -/
def State.ucClear (s : State) (lp : LpId) (word : BitVec 32) : State :=
  let s := (List.finRange 16).foldl (fun (s : State) r =>
    s.setU lp r (if r.val = 15 then BitVec.ofNat 64 (iwBits word 10 4) else 0)) s
  s.ucFreshU lp

/-- A slip's interrupted routine is resumed (R193, R199): USTATE.ACTIVE is cleared, U16 to U47 read 0. -/
def ucResume (lp : LpId) (word : BitVec 32) (kind : Bool) : Act Micro := do
  let s ← get
  let x := s.slip lp
  modify (fun s => (s.clearActive lp).ucFreshU lp)
  pure (x.resumed word kind (s.ucWord (s.ucFetch kind (bits x.ustate 15 0))))

/-- A customer instruction issues (R86, R199, R201, R202): the routine it enters or resumes. -/
def customEntry (lp : LpId) (word : BitVec 32) : Act Micro := do
  let s ← get
  let x := s.slip lp
  let n := iwBits word 3 0
  let e := s.reg (offUc + 0x400 + 8 * n)
  let active := bit x.ustate 16
  if active ∧ ¬ (x.resumable false n ∧ bit e 0) then failResume lp
  else do
    require (bit e 0) excIllegal
    require (decide (¬ (bits e 7 4 = 1 ∧ bitAt word 11) ∧ ¬ (bits e 7 4 = 2 ∧ iwBits word 25 11 ≠ 0))) excIllegal
    require (decide (x.level.toNat ≤ bits e 2 1)) excPrivileged
    if active then ucResume lp word false
    else do
      modify (fun s => (s.clearActive lp).ucClear lp word)
      pure (Micro.enter word false (BitVec.ofNat 4 n) (bits e 31 16))

/-- A TZ-7400 instruction issues (R199, R205): which routine decodes it the spec leaves to the control store. -/
def forerunnerRoutine (lp : LpId) (word : BitVec 32) : Act Micro := do
  let s ← get
  let x := s.slip lp
  if bit x.ustate 16 then
    if x.resumable true 0 then ucResume lp word true else failResume lp
  else do
    modify (fun s => s.clearActive lp)
    pure (Micro.enter word true 0 (0xC000 + Config.forerunnerEntry word % 0x4000))

/-- A routine in progress of the same instruction goes on; where its window was closed at the trap point it stands at, the next one opens
there (R214). -/
def State.ucContinue (s : State) (lp : LpId) (m : Micro) (word : BitVec 32) (kind : Bool) (budget : Nat) : State :=
  if ¬ s.lpReady lp ∨ m.word ≠ word ∨ m.kind ≠ kind then s
  else
    let (s, m) := if (s.lpv lp).win.isNone ∧ ¬ (s.lpv lp).unchecked ∧ s.ucTrapPoint m then
        let (s, m) := s.ucCommit lp m
        let (s, m) := s.ucLand lp m
        (s.ucOpenWin lp m, m)
      else (s, m)
    ucRun lp (BitVec.ofNat 64 word.toNat) budget m (s.setLpv lp { s.lpv lp with micro := none })

/-- CUSTOM_INSTRUCTION (R86, R193 to R204): enters, resumes or goes on with the routine, for `budget` words. -/
def execCustomInstruction (lp : LpId) (word : BitVec 26) (budget : Nat) (s : State) : Out :=
  let w : BitVec 32 := BitVec.ofNat 32 (0x3E * 2 ^ 26 + word.toNat)
  let iword : Word := BitVec.ofNat 64 w.toNat
  .next (match (s.lpv lp).micro with
    | some m => s.ucContinue lp m w false budget
    | none => s.runIn false lp 1 iword 2 (customEntry lp w) (fun m s => some (ucRun lp iword budget m s)))

/-- FORERUNNER_INSTRUCTION (R205): the same in compatibility mode, with a forerunner routine. -/
def execForerunnerInstruction (lp : LpId) (word : BitVec 32) (budget : Nat) (s : State) : Out :=
  let iword : Word := BitVec.ofNat 64 word.toNat
  .next (match (s.lpv lp).micro with
    | some m => s.ucContinue lp m word true budget
    | none => s.runIn true lp 1 iword 2 (forerunnerRoutine lp word) (fun m s => some (ucRun lp iword budget m s)))

/-- WAIT_ON_TIMER (R185): MOD_TIMEBASE has reached U[SRCA] and the WAIT a routine stands at issues. -/
def execWaitOnTimer (lp : LpId) (s : State) : Out :=
  .next (match (s.lpv lp).micro with
    | none => s
    | some m =>
      let w := s.ucNextWord m
      if ucIsWait w ∧ ucCond w = 5 then s.ucContinue lp m m.word m.kind 1 else s)

/-- UNDEFINED_INSTRUCTION (R98, R100): words that name no instruction are an illegal operation at every level; words that name
one are not this command. -/
def execUndefinedInstruction (lp : LpId) (w0 w1 : BitVec 32) (s : State) : Out :=
  .next (
    if (decodeWords lp w0 w1).isSome then s
    else
      let long := isLong w0
      let iword : Word := BitVec.ofNat 64 (w0.toNat + (if long then w1.toNat * 2 ^ 32 else 0))
      s.runIn false lp (if long then 2 else 1) iword 0 (do
        let s ← get
        if bit (s.slip lp).ustate 16 then failResume lp else (raiseExc excIllegal : Act Unit))
        (fun _ s => some s))

end Sys2Proof.Machine
end

