-- ==== Sys2Proof/Machine/Pins.lean ====
section
/-! DEFINITION. Sensors and thermal trips (R42 to R45, R651), compute-rail control (R641 to R643), the standby rails (R640), the
service port (R654 to R656) and JTAG (R545, R657). -/

namespace Sys2Proof.Machine

/-! ## Temperature and power -/

/-- Whether the main domain has its clocks: from the beginning of a start to the end of a landing (R41). -/
def State.islandsOn (s : State) : Bool :=
  s.std.pwrgood && decide (s.pwr.phase ≠ .off ∧ s.pwr.phase ≠ .waiting ∧ s.pwr.phase ≠ .landed ∧ s.pwr.phase ≠ .unsealed)

/-- THERMTRIP_N falls and a landing with cause HOLD begins (R651). -/
def State.trip (s : State) : State := { s with std := { s.std with thermtrip := true } }.hold

/-- Every main-domain clock stops at once, without a landing (R651). -/
def State.thermalStop (s : State) : State :=
  { s with pwr := { s.pwr with unbroken := false } }.islandsStop

/-- A junction sensor's reading acts: a trip at 115 °C, all clocks stop at 125 °C (R651). -/
def State.junction (s : State) (t : Nat) : State :=
  let s := if 115 ≤ t ∧ ¬ s.std.thermtrip then s.trip else s
  if 125 ≤ t then s.thermalStop else s

/-- A reading reaches WARN_LIMIT from below, or is the first of a start (R42). -/
def State.warns (s : State) (k v : Nat) : Bool :=
  let lim := s.regF 0x38 55 48
  decide (lim ≤ v ∧ (bits (s.reg 0x38) (8 * k + 7) (8 * k) < lim ∨ ¬ s.pwr.readings))

/-- THERM_UPDATE (R42, R45, R651): the readings of C0 to C3, H and the hottest landing-store stack, in °C; one below 0 reads 0. -/
def execThermUpdate (c0 c1 c2 c3 hub ls : Int) (s : State) : Out :=
  .next (
    if ¬ s.islandsOn then s
    else
      let l := [c0, c1, c2, c3, hub, ls].map (fun x => min 255 x.toNat)
      let warn := (List.range 6).any (fun k => s.warns k (l.getD k 0))
      let w := (List.range 6).foldl (fun w k => setBits w (8 * k + 7) (8 * k) (l.getD k 0)) (s.reg 0x38)
      let s : State := { s.setReg 0x38 w with pwr := { s.pwr with readings := true } }
      let s := if warn then s.modEvent 4 else s
      let s := if warn ∨ 85 < ls then s.report 0x213 else s
      s.junction (([c0, c1, c2, c3, hub].map Int.toNat).foldl max 0))

/-- POWER_UPDATE (R42, R44): the averages of a 1 ms period. -/
def execPowerUpdate (c0 c1 c2 c3 hub : Nat) (s : State) : Out :=
  .next (
    if ¬ s.islandsOn then s
    else
      let l := [c0, c1, c2, c3, hub].map (min 4095)
      let w := (List.range 5).foldl (fun w k => w ||| field (12 * k + 11) (12 * k) (l.getD k 0)) 0
      let n := if 1100 < l.sum then s.pwr.overRow + 1 else 0
      let s : State := { s.setReg 0x30 w with pwr := { s.pwr with overRow := n } }
      if 5 ≤ n then (s.modEvent 5).report 0x214 else s)

/-- THERMTRIP (R651). -/
def execThermtrip (s : State) : Out := .next (if s.islandsOn ∧ ¬ s.std.thermtrip then s.trip else s)

/-- THERMAL_SHUTDOWN (R651). -/
def execThermalShutdown (s : State) : Out := .next (if s.islandsOn then s.thermalStop else s)

/-! ## Compute rails -/

/-- The highest lane clock in MHz a rail voltage in mV allows (R642); below 0.65 V the spec states none. -/
def laneLimit (mv : Nat) : Nat :=
  if 950 ≤ mv then 5400
  else if 850 ≤ mv then 4800 + 6 * (mv - 850)
  else if 750 ≤ mv then 3800 + 10 * (mv - 750)
  else if 650 ≤ mv then 2600 + 12 * (mv - 650)
  else min 2600 (Config.freeNat mv)

/-- The voltage in mV a lane clock in MHz needs (R642). -/
def laneVolt (mhz : Nat) : Nat :=
  if mhz ≤ 2600 then 650
  else if mhz ≤ 3800 then 650 + (mhz - 2600 + 11) / 12
  else if mhz ≤ 4800 then 750 + (mhz - 3800 + 9) / 10
  else min 950 (850 + (mhz - 4800 + 5) / 6)

/-- A twin's lane clock, wanted and running; nominal after power-up. -/
def State.lane (s : State) (t : Nat) : Nat × Nat := s.pwr.lanes.get t (4800, 4800)

/-- Replaces a twin's lane clock. -/
def State.setLane (s : State) (t : Nat) (v : Nat × Nat) : State :=
  { s with pwr := { s.pwr with lanes := s.pwr.lanes.put t v (4800, 4800) } }

/-- The PMBus side of a die. -/
def State.rail (s : State) (d : Nat) : Rail := s.pwr.rails.get d Rail.up

/-- Replaces the PMBus side of a die. -/
def State.setRail (s : State) (d : Nat) (r : Rail) : State :=
  { s with pwr := { s.pwr with rails := s.pwr.rails.put d r Rail.up } }

/-- The voltage the fastest twin of a die needs (R642). -/
def State.railTarget (s : State) (d : Nat) : Nat :=
  ((List.range 16).map (fun k => laneVolt (s.lane (16 * d + k)).1)).foldl max 0

/-- VOUT_COMMAND is written where the module may write (R641, R642): a regulator of another mode never is. -/
def State.commandRail (s : State) (d : Nat) : State :=
  let r := s.rail d
  let v := s.railTarget d
  if ¬ r.ulinear ∨ s.pwr.phase ≠ .running ∨ r.command = v then s
  else s.setRail d { r with command := v, late := false }

/-- The lane clocks of a die run as the voltage last read allows, up to what is wanted (R641, R642). -/
def State.settleLanes (s : State) (d : Nat) : State :=
  let lim := laneLimit (s.rail d).read
  (List.range 16).foldl (fun s k =>
    let l := s.lane (16 * d + k)
    s.setLane (16 * d + k) (l.1, min l.1 lim)) s

/-- LANE_CLOCK_SET (R46, R642): a fall lowers the clock and then the voltage; a rise writes the voltage first and waits until
READ_VOUT reads at least the target less 5 mV. -/
def execLaneClockSet (src : Src) (twin : Fin 64) (mhz : Nat) (s : State) : Out :=
  .next (
    if ¬ s.srcKeel src ∨ s.pwr.phase ≠ .running then s
    else
      let d := twin.val / 16
      let w := min mhz 5400
      let run := (s.lane twin.val).2
      if w ≤ run then (s.setLane twin.val (w, w)).commandRail d
      else
        let s := (s.setLane twin.val (w, run)).commandRail d
        let r := s.rail d
        if r.command ≤ r.read + 5 ∨ ¬ r.ulinear then s.setLane twin.val (w, max run (min w (laneLimit r.read))) else s)

/-- VOUT_POLL (R642): READ_VOUT reads `mv`; a voltage that has not reached its target is reported once. -/
def execVoutPoll (die : Fin 4) (mv : Nat) (s : State) : Out :=
  .next (
    if ¬ s.islandsOn then s
    else
      let r := s.rail die.val
      let rising := (List.range 16).any (fun k => decide ((s.lane (16 * die.val + k)).2 < (s.lane (16 * die.val + k)).1))
      let late := r.ulinear && rising && decide (mv + 5 < r.command)
      let s := s.setRail die.val { r with read := mv, late := r.late || late }
      let s := if late ∧ ¬ r.late then s.report 0x214 else s
      s.settleLanes die.val)

/-- PMBUS_ALERT (R643): a fault bit of STATUS_WORD, or ALERT, raises POWER. -/
def execPmbusAlert (_die : Fin 4) (_status : BitVec 16) (s : State) : Out := .next (if s.std.pwrgood then s.report 0x214 else s)

/-- PMBUS_TIMEOUT (R643). -/
def execPmbusTimeout (_die : Fin 4) (s : State) : Out := .next (if s.std.pwrgood then s.report 0x214 else s)

/-- PMBUS_ARBITRATION_RETRY (R643): the write is made again. -/
def execPmbusArbitrationRetry (die : Fin 4) (s : State) : Out := .next (s.commandRail die.val)

/-! ## Standby rails -/

/-- STANDBY_LOSS (R573, R640): the collector's state, LANDED and the service island are lost; main power is gone before them. -/
def execStandbyLoss (s : State) : Out :=
  .next (
    if ¬ s.std.standby then s
    else
      let s := if s.std.pwrgood then s.pwrgoodFall else s
      let s := s.powerLoss
      { s with live := Live.reset, std := { Std.reset with standby := false },
               pwr := { Pwr.reset with modid := s.pwr.modid, part := s.pwr.part, stepping := s.pwr.stepping } })

/-- STANDBY_RETURN (R41, R640): the collector and the service island start with their reset values, and POWER_STATE reads OFF. -/
def execStandbyReturn (s : State) : Out := .next (if s.std.standby then s else { s with std := Std.reset })

/-! ## The service port -/

/-- Changes the service port. -/
def State.withSvc (s : State) (f : Svc → Svc) : State := { s with std := { s.std with svc := f s.std.svc } }

/-- Whether the offset lies in one of the blocks MOD, CFG, FC, LAND and RTU (R32, R656). -/
def svcBlock (off : Nat) : Bool := decide (off < offTally)

/-- The status of a service-port read (R35, R656): 0 OK, 2 DENIED, 3 BUS_ERROR. -/
def State.svcReadStatus (s : State) (off : Nat) : Byte :=
  if s.std.pwrgood then (if svcBlock off then (if s.regExists off then 0 else 3) else 2)
  else if (off = 0 ∨ off = 0x18 ∨ (offCfg ≤ off ∧ off < offLand)) ∧ s.regExists off then 0 else 3

/-- The status of a service-port write (R35, R549, R656). -/
def State.svcWriteStatus (s : State) (off : Nat) : Byte :=
  if ¬ s.std.pwrgood then (if off < offLand then 2 else 3)
  else if (offLand ≤ off ∧ off < offTally) ∧ ¬ s.regExists off then 3
  else if off = offRtu + 8 ∨ off = offRtu + 0x10 ∨ (offRtu + 0x1000 ≤ off ∧ off < offTally) then 0
  else if off = offLand + 0x10 ∧ (s.pwr.phase = .waiting ∨ s.pwr.phase = .off ∨ s.pwr.phase = .training) then 0
  else 2

/-- SVC_SET_ADDR (R655). -/
def execSvcSetAddr (off : BitVec 32) (s : State) : Out :=
  .next (
    if ¬ s.std.standby then s
    else if off.toNat % 8 ≠ 0 then s.withSvc (fun p => { p with op := 3, status := 4, data := 0 })
    else s.withSvc (fun p => { p with op := 3, status := 0, data := 0, addr := off }))

/-- SVC_WRITE (R655, R656). -/
def execSvcWrite (v : Word) (s : State) : Out :=
  .next (
    if ¬ s.std.standby then s
    else
      let off := s.std.svc.addr.toNat
      let st := s.svcWriteStatus off
      let s := if st ≠ 0 then s else if off = offLand + 0x10 then s.landElapsed v else s.rtuWrite .service (off - offRtu) v
      s.withSvc (fun p => { p with op := 2, status := st, data := 0, addr := if st = 0 then p.addr + 8 else p.addr }))

/-- SVC_READ (R655, R656). -/
def execSvcRead (s : State) : Out :=
  .next (
    if ¬ s.std.standby then s
    else
      let off := s.std.svc.addr.toNat
      let st := s.svcReadStatus off
      let v := if st = 0 then s.regValue .service off else 0
      s.withSvc (fun p => { p with op := 1, status := st, data := v, addr := if st = 0 then p.addr + 8 else p.addr }))

/-- SVC_PRIVATE_READ (R655): the status and, after a READ, the data; another length gives PROTOCOL and zeros. -/
def execSvcPrivateRead (count : Nat) (s : State) : Out :=
  .next (
    if ¬ s.std.standby then s
    else s.withSvc (fun p =>
      let want := if p.op = 1 then 9 else if p.op = 0 then 0 else 1
      let out : List Byte := if count = want then (p.status :: (if p.op = 1 then wordBytes p.data else [])).take count
        else ((4 : Byte) :: List.replicate count 0).take count
      { p with op := 0, out := out }))

/-- A dynamic address is assigned to a port that has none (R654). -/
def State.svcAssign (s : State) (a : BitVec 7) : State :=
  if s.std.standby ∧ s.std.svc.dyn.isNone then s.withSvc (fun p => { p with dyn := some a }) else s

/-- SETDASA (R654). -/
def execSetdasa (addr : BitVec 7) (s : State) : Out := .next (s.svcAssign addr)

/-- ENTDAA (R654). -/
def execEntdaa (addr : BitVec 7) (s : State) : Out := .next (s.svcAssign addr)

/-! ## JTAG -/

/-- Puts a value into the TAP's data register. -/
def State.setTap (s : State) (v : Option Word) : State := { s with std := { s.std with tap := v } }

/-- TAP_RESET (R657): the debug level stays. -/
def execTapReset (s : State) : Out := .next (s.setTap none)

/-- IDCODE (R657). -/
def State.idcode (s : State) : Word := field 31 28 (s.pwr.stepping.toNat / 16) ||| field 27 12 0x9600 ||| field 11 1 0x3F1 ||| 1

/-- Whether a probe may read a slip's registers (R545): any slip at FULL, slip 0 of a halted LP at KEEL-DEBUG. -/
def State.probeSlip (s : State) (lp : LpId) (k : Fin 8) : Bool :=
  s.mainOn && decide (lp.val < s.lpCount) &&
    (decide (s.debug = 2) || (decide (s.debug = 1 ∧ k = 0) && (s.lpv lp).halted))

/-- Whether a probe may use what FULL alone opens. -/
def State.probeFull (s : State) : Bool := s.mainOn && decide (s.debug = 2)

/-- A landing-store window is open to a probe (R29, R545). -/
def State.probeStore (s : State) : Bool := s.probeFull && s.harbour

/-- Whether boundary scan may run (R545). -/
def State.probeScan (s : State) : Bool :=
  decide (s.debug = 2 ∧ s.nv.otp.cycle ≤ 1) && s.std.modrst

/-- A byte of main memory as a probe reads it. -/
def State.probeReadMem (s : State) (a : Nat) : State :=
  match s.readAbs a 1 with
  | .ok (d, .good) s => s.setTap (some (leWord d))
  | .ok _ s => s.setTap none
  | .bus s => s.setTap none
  | .wait => s

/-- A probe writes a slip's register; its group becomes dirty (R166). -/
def State.probeSlipSet (s : State) (lp : LpId) (k : Fin 8) (f : Slip → Slip) (group : BitVec 5) : State :=
  let x := f (s.slipN lp k)
  s.setSlipN lp k { x with dirty := x.dirty ||| group }

/-- JTAG_PROBE_ACCESS (R545, R657): an access its debug level does not allow does nothing. -/
def execJtagProbeAccess (acc : Probe) (s : State) : Out :=
  .next (
    if ¬ s.std.standby then s
    else match acc with
    | .idcode => s.setTap (some s.idcode)
    | .bypass => s.setTap (some 0)
    | .readCtl off =>
      if s.srcMay .probe 0 then
        match s.busRead .probe off.toNat with
        | some (v, s) => s.setTap (some v)
        | none => s.setTap none
      else s
    | .writeCtl off v => if s.srcMay .probe 0 then (s.busWrite .probe off.toNat v).getD s else s
    | .readMem a => if s.probeFull then s.probeReadMem a.toNat else s
    | .writeMem a v =>
      if s.probeFull then (match s.writeAbs 999 a.toNat [v] with | .ok _ s => s | .bus s => s | .wait => s) else s
    | .readG lp k r => if s.probeSlip lp k then s.setTap (some ((s.slipN lp k).g.get r)) else s
    | .writeG lp k r v =>
      if s.probeFull ∧ lp.val < s.lpCount then
        s.probeSlipSet lp k (fun x => { x with g := x.g.set r.val v r.isLt }) (if r.val < 16 then 1 else 2)
      else s
    | .readF lp k r => if s.probeSlip lp k then s.setTap (some ((s.slipN lp k).f.get r)) else s
    | .writeF lp k r v =>
      if s.probeFull ∧ lp.val < s.lpCount then
        s.probeSlipSet lp k (fun x => { x with f := x.f.set r.val v r.isLt }) (if r.val < 16 then 4 else 8)
      else s
    | .readU lp r => if s.probeFull ∧ lp.val < s.lpCount then s.setTap (some (s.u lp r.val)) else s
    | .writeU lp r v =>
      if ¬ (s.probeFull ∧ lp.val < s.lpCount) then s
      else if h : r.val < 16 then
        s.probeSlipSet lp (s.lp lp).run (fun x => { x with u := x.u.set r.val v h }) 16
      else s.putU lp r.val v
    | .readStore off => 
      if ¬ s.probeStore then s
      else if lsArea off.toNat = .trailer ∨ s.nv.lsBad.get (off.toNat / 256) false then s.setTap none
      else (s.setTap (some ((s.lsByte off.toNat).setWidth 64))).tick1
    | .writeStore off v =>
      if s.probeStore ∧ lsArea off.toNat ≠ .trailer then s.lsStore off.toNat [v] else s
    | .samplePreload => if s.probeScan then (s.setTap (some (Config.freeWord s.free))).tick1 else s
    | .extest => if s.probeScan then (s.setTap (some (Config.freeWord s.free))).tick1 else s)

end Sys2Proof.Machine
end

