-- ==== Sys2Proof/Machine/Dispatch.lean ====
section
/-! DEFINITION. One arm per command: the meaning it calls. -/

namespace Sys2Proof.Machine

/-- The effect of a command on everything but the queue. -/
def exec (i : Instr) (s : State) : Host.Outcome State Fault Refusal :=
  match i with
  | .add lp d s1 s2 => Sys2Proof.Machine.execAdd lp d s1 s2 s
  | .sub lp d s1 s2 => Sys2Proof.Machine.execSub lp d s1 s2 s
  | .and lp d s1 s2 => Sys2Proof.Machine.execAnd lp d s1 s2 s
  | .or lp d s1 s2 => Sys2Proof.Machine.execOr lp d s1 s2 s
  | .xor lp d s1 s2 => Sys2Proof.Machine.execXor lp d s1 s2 s
  | .andn lp d s1 s2 => Sys2Proof.Machine.execAndn lp d s1 s2 s
  | .sll lp d s1 s2 => Sys2Proof.Machine.execSll lp d s1 s2 s
  | .srl lp d s1 s2 => Sys2Proof.Machine.execSrl lp d s1 s2 s
  | .sra lp d s1 s2 => Sys2Proof.Machine.execSra lp d s1 s2 s
  | .ror lp d s1 s2 => Sys2Proof.Machine.execRor lp d s1 s2 s
  | .cmpeq lp d s1 s2 => Sys2Proof.Machine.execCmpeq lp d s1 s2 s
  | .cmplt lp d s1 s2 => Sys2Proof.Machine.execCmplt lp d s1 s2 s
  | .cmpltu lp d s1 s2 => Sys2Proof.Machine.execCmpltu lp d s1 s2 s
  | .sextb lp d s1 => Sys2Proof.Machine.execSextb lp d s1 s
  | .sexth lp d s1 => Sys2Proof.Machine.execSexth lp d s1 s
  | .sextw lp d s1 => Sys2Proof.Machine.execSextw lp d s1 s
  | .clz lp d s1 => Sys2Proof.Machine.execClz lp d s1 s
  | .popc lp d s1 => Sys2Proof.Machine.execPopc lp d s1 s
  | .min lp d s1 s2 => Sys2Proof.Machine.execMin lp d s1 s2 s
  | .max lp d s1 s2 => Sys2Proof.Machine.execMax lp d s1 s2 s
  | .minu lp d s1 s2 => Sys2Proof.Machine.execMinu lp d s1 s2 s
  | .maxu lp d s1 s2 => Sys2Proof.Machine.execMaxu lp d s1 s2 s
  | .mul lp d s1 s2 => Sys2Proof.Machine.execMul lp d s1 s2 s
  | .mulh lp d s1 s2 => Sys2Proof.Machine.execMulh lp d s1 s2 s
  | .mulhu lp d s1 s2 => Sys2Proof.Machine.execMulhu lp d s1 s2 s
  | .div lp d s1 s2 => Sys2Proof.Machine.execDiv lp d s1 s2 s
  | .divu lp d s1 s2 => Sys2Proof.Machine.execDivu lp d s1 s2 s
  | .rem lp d s1 s2 => Sys2Proof.Machine.execRem lp d s1 s2 s
  | .remu lp d s1 s2 => Sys2Proof.Machine.execRemu lp d s1 s2 s
  | .addi lp d s1 imm => Sys2Proof.Machine.execAddi lp d s1 imm s
  | .andi lp d s1 imm => Sys2Proof.Machine.execAndi lp d s1 imm s
  | .ori lp d s1 imm => Sys2Proof.Machine.execOri lp d s1 imm s
  | .xori lp d s1 imm => Sys2Proof.Machine.execXori lp d s1 imm s
  | .ldi lp d imm => Sys2Proof.Machine.execLdi lp d imm s
  | .shi lp d s1 kind amount => Sys2Proof.Machine.execShi lp d s1 kind amount s
  | .callm lp t mask => Sys2Proof.Machine.execCallm lp t mask s
  | .retm lp mask => Sys2Proof.Machine.execRetm lp mask s
  | .br lp off => Sys2Proof.Machine.execBr lp off s
  | .bz lp r off => Sys2Proof.Machine.execBz lp r off s
  | .bnz lp r off => Sys2Proof.Machine.execBnz lp r off s
  | .bltz lp r off => Sys2Proof.Machine.execBltz lp r off s
  | .bgez lp r off => Sys2Proof.Machine.execBgez lp r off s
  | .bal lp r off => Sys2Proof.Machine.execBal lp r off s
  | .jmp lp r => Sys2Proof.Machine.execJmp lp r s
  | .dbnz lp r off => Sys2Proof.Machine.execDbnz lp r off s
  | .ldb lp t base bank disp => Sys2Proof.Machine.execLdb lp t base bank disp s
  | .ldh lp t base bank disp => Sys2Proof.Machine.execLdh lp t base bank disp s
  | .ldw lp t base bank disp => Sys2Proof.Machine.execLdw lp t base bank disp s
  | .ldd lp t base bank disp => Sys2Proof.Machine.execLdd lp t base bank disp s
  | .stb lp t base bank disp => Sys2Proof.Machine.execStb lp t base bank disp s
  | .sth lp t base bank disp => Sys2Proof.Machine.execSth lp t base bank disp s
  | .stw lp t base bank disp => Sys2Proof.Machine.execStw lp t base bank disp s
  | .std lp t base bank disp => Sys2Proof.Machine.execStd lp t base bank disp s
  | .ldfs lp t base bank disp => Sys2Proof.Machine.execLdfs lp t base bank disp s
  | .ldf lp t base bank disp => Sys2Proof.Machine.execLdf lp t base bank disp s
  | .stfs lp t base bank disp => Sys2Proof.Machine.execStfs lp t base bank disp s
  | .stf lp t base bank disp => Sys2Proof.Machine.execStf lp t base bank disp s
  | .ldpair lp t base bank disp => Sys2Proof.Machine.execLdpair lp t base bank disp s
  | .stpair lp t base bank disp => Sys2Proof.Machine.execStpair lp t base bank disp s
  | .lrsv lp d s1 bank dbl => Sys2Proof.Machine.execLrsv lp d s1 bank dbl s
  | .stcond lp d s1 bank dbl => Sys2Proof.Machine.execStcond lp d s1 bank dbl s
  | .swap lp d s1 bank dbl => Sys2Proof.Machine.execSwap lp d s1 bank dbl s
  | .aadd lp d s1 bank dbl => Sys2Proof.Machine.execAadd lp d s1 bank dbl s
  | .aand lp d s1 bank dbl => Sys2Proof.Machine.execAand lp d s1 bank dbl s
  | .aor lp d s1 bank dbl => Sys2Proof.Machine.execAor lp d s1 bank dbl s
  | .axor lp d s1 bank dbl => Sys2Proof.Machine.execAxor lp d s1 bank dbl s
  | .cas lp d s1 bank dbl => Sys2Proof.Machine.execCas lp d s1 bank dbl s
  | .fadd lp d s1 s2 p => Sys2Proof.Machine.execFadd lp d s1 s2 p s
  | .fsub lp d s1 s2 p => Sys2Proof.Machine.execFsub lp d s1 s2 p s
  | .fmul lp d s1 s2 p => Sys2Proof.Machine.execFmul lp d s1 s2 p s
  | .fdiv lp d s1 s2 p => Sys2Proof.Machine.execFdiv lp d s1 s2 p s
  | .fsqrt lp d s1 p => Sys2Proof.Machine.execFsqrt lp d s1 p s
  | .fma lp d s1 s2 p => Sys2Proof.Machine.execFma lp d s1 s2 p s
  | .fms lp d s1 s2 p => Sys2Proof.Machine.execFms lp d s1 s2 p s
  | .fnma lp d s1 s2 p => Sys2Proof.Machine.execFnma lp d s1 s2 p s
  | .fmin lp d s1 s2 p => Sys2Proof.Machine.execFmin lp d s1 s2 p s
  | .fmax lp d s1 s2 p => Sys2Proof.Machine.execFmax lp d s1 s2 p s
  | .fneg lp d s1 p => Sys2Proof.Machine.execFneg lp d s1 p s
  | .fabs lp d s1 p => Sys2Proof.Machine.execFabs lp d s1 p s
  | .fcmpeq lp d s1 s2 p => Sys2Proof.Machine.execFcmpeq lp d s1 s2 p s
  | .fcmplt lp d s1 s2 p => Sys2Proof.Machine.execFcmplt lp d s1 s2 p s
  | .fcmple lp d s1 s2 p => Sys2Proof.Machine.execFcmple lp d s1 s2 p s
  | .fclass lp d s1 p => Sys2Proof.Machine.execFclass lp d s1 p s
  | .fcvtf lp d s1 p => Sys2Proof.Machine.execFcvtf lp d s1 p s
  | .fcvti lp d s1 p => Sys2Proof.Machine.execFcvti lp d s1 p s
  | .fcvtiu lp d s1 p => Sys2Proof.Machine.execFcvtiu lp d s1 p s
  | .icvtf lp d s1 p => Sys2Proof.Machine.execIcvtf lp d s1 p s
  | .iucvtf lp d s1 p => Sys2Proof.Machine.execIucvtf lp d s1 p s
  | .movgf lp d s1 => Sys2Proof.Machine.execMovgf lp d s1 s
  | .movfg lp d s1 => Sys2Proof.Machine.execMovfg lp d s1 s
  | .pka lp d s1 s2 len => Sys2Proof.Machine.execPka lp d s1 s2 len s
  | .pks lp d s1 s2 len => Sys2Proof.Machine.execPks lp d s1 s2 len s
  | .movl lp d s1 s2 p q => Sys2Proof.Machine.execMovl lp d s1 s2 p q s
  | .cmpl lp d s1 s2 p q => Sys2Proof.Machine.execCmpl lp d s1 s2 p q s
  | .trnl lp d s1 s2 p q => Sys2Proof.Machine.execTrnl lp d s1 s2 p q s
  | .cksm lp d s1 s2 p q => Sys2Proof.Machine.execCksm lp d s1 s2 p q s
  | .mtc lp c s1 => Sys2Proof.Machine.execMtc lp c s1 s
  | .mfc lp d c => Sys2Proof.Machine.execMfc lp d c s
  | .mtb lp b s1 => Sys2Proof.Machine.execMtb lp b s1 s
  | .mfb lp d b => Sys2Proof.Machine.execMfb lp d b s
  | .rfl lp => Sys2Proof.Machine.execRfl lp s
  | .lvc lp target service => Sys2Proof.Machine.execLvc lp target service s
  | .fence lp => Sys2Proof.Machine.execFence lp s
  | .dsync lp => Sys2Proof.Machine.execDsync lp s
  | .iosync lp => Sys2Proof.Machine.execIosync lp s
  | .spill lp n => Sys2Proof.Machine.execSpill lp n s
  | .fill lp s1 n => Sys2Proof.Machine.execFill lp s1 n s
  | .rdslip lp d n r => Sys2Proof.Machine.execRdslip lp d n r s
  | .ttbind lp d s1 s2 => Sys2Proof.Machine.execTtbind lp d s1 s2 s
  | .ttwait lp => Sys2Proof.Machine.execTtwait lp s
  | .ttyield lp => Sys2Proof.Machine.execTtyield lp s
  | .signal lp d s1 => Sys2Proof.Machine.execSignal lp d s1 s
  | .timer lp s1 => Sys2Proof.Machine.execTimer lp s1 s
  | .cwb lp d s1 b => Sys2Proof.Machine.execCwb lp d s1 b s
  | .cinv lp d s1 b => Sys2Proof.Machine.execCinv lp d s1 b s
  | .clock lp d s1 b x => Sys2Proof.Machine.execClock lp d s1 b x s
  | .cunlock lp d s1 b x => Sys2Proof.Machine.execCunlock lp d s1 b x s
  | .ctouch lp d b x => Sys2Proof.Machine.execCtouch lp d b x s
  | .czero lp d b => Sys2Proof.Machine.execCzero lp d b s
  | .customInstruction lp word budget => Sys2Proof.Machine.execCustomInstruction lp word budget s
  | .forerunnerInstruction lp word budget => Sys2Proof.Machine.execForerunnerInstruction lp word budget s
  | .ucFaultClear src => Sys2Proof.Machine.execUcFaultClear src s
  | .interrupt lp => Sys2Proof.Machine.execInterrupt lp s
  | .busDeferred lp => Sys2Proof.Machine.execBusDeferred lp s
  | .singleStep lp => Sys2Proof.Machine.execSingleStep lp s
  | .slipOverflow lp => Sys2Proof.Machine.execSlipOverflow lp s
  | .linesLost lp => Sys2Proof.Machine.execLinesLost lp s
  | .evtRaise src v => Sys2Proof.Machine.execEvtRaise src v s
  | .wakeDelivery source => Sys2Proof.Machine.execWakeDelivery source s
  | .slipSwitch lp => Sys2Proof.Machine.execSlipSwitch lp s
  | .hardwareFill lp => Sys2Proof.Machine.execHardwareFill lp s
  | .lpTimerWrite src lp v => Sys2Proof.Machine.execLpTimerWrite src lp v s
  | .lpTimerFire lp => Sys2Proof.Machine.execLpTimerFire lp s
  | .stop src lp => Sys2Proof.Machine.execStop src lp s
  | .start src lp => Sys2Proof.Machine.execStart src lp s
  | .restart src lp => Sys2Proof.Machine.execRestart src lp s
  | .windowClose lp => Sys2Proof.Machine.execWindowClose lp s
  | .windowCompare lp diff => Sys2Proof.Machine.execWindowCompare lp diff s
  | .lpStop lp => Sys2Proof.Machine.execLpStop lp s
  | .debugHalt lp => Sys2Proof.Machine.execDebugHalt lp s
  | .l2DrainDone lp lost => Sys2Proof.Machine.execL2DrainDone lp lost s
  | .spareTwinReady lp => Sys2Proof.Machine.execSpareTwinReady lp s
  | .stateTransferDone lp => Sys2Proof.Machine.execStateTransferDone lp s
  | .rds req line => Sys2Proof.Machine.execRds req line s
  | .rdo req line => Sys2Proof.Machine.execRdo req line s
  | .upg req line => Sys2Proof.Machine.execUpg req line s
  | .rdoz req line => Sys2Proof.Machine.execRdoz req line s
  | .rdcur req line => Sys2Proof.Machine.execRdcur req line s
  | .wrinvf req line data => Sys2Proof.Machine.execWrinvf req line data s
  | .wrinvp req line off data => Sys2Proof.Machine.execWrinvp req line off data s
  | .clean req line => Sys2Proof.Machine.execClean req line s
  | .inv req line => Sys2Proof.Machine.execInv req line s
  | .wbk req line data poison => Sys2Proof.Machine.execWbk req line data poison s
  | .snpshared agent line => Sys2Proof.Machine.execSnpshared agent line s
  | .snpown agent line => Sys2Proof.Machine.execSnpown agent line s
  | .snpcur agent line => Sys2Proof.Machine.execSnpcur agent line s
  | .snpinv agent line => Sys2Proof.Machine.execSnpinv agent line s
  | .snpinvf agent line => Sys2Proof.Machine.execSnpinvf agent line s
  | .snpclean agent line => Sys2Proof.Machine.execSnpclean agent line s
  | .snoopResponse agent line resp data => Sys2Proof.Machine.execSnoopResponse agent line resp data s
  | .homeCompletion req line => Sys2Proof.Machine.execHomeCompletion req line s
  | .dat req line => Sys2Proof.Machine.execDat req line s
  | .wbkAck agent line => Sys2Proof.Machine.execWbkAck agent line s
  | .requestResend req line => Sys2Proof.Machine.execRequestResend req line s
  | .ticketExpiry port => Sys2Proof.Machine.execTicketExpiry port s
  | .mooringEnd agent line => Sys2Proof.Machine.execMooringEnd agent line s
  | .manifestError port set => Sys2Proof.Machine.execManifestError port set s
  | .manifestRebuildDone port set => Sys2Proof.Machine.execManifestRebuildDone port set s
  | .cacheEnableWrite src off v => Sys2Proof.Machine.execCacheEnableWrite src off v s
  | .cacheDrained agent => Sys2Proof.Machine.execCacheDrained agent s
  | .lockWaysWrite src off v => Sys2Proof.Machine.execLockWaysWrite src off v s
  | .causewayLinkTrained link peer => Sys2Proof.Machine.execCausewayLinkTrained link peer s
  | .causewayTrainTimeout link => Sys2Proof.Machine.execCausewayTrainTimeout link s
  | .causewayLinkDown link => Sys2Proof.Machine.execCausewayLinkDown link s
  | .deviceStoreCompletion lp posted busError => Sys2Proof.Machine.execDeviceStoreCompletion lp posted busError s
  | .deviceLoadData lp data busError => Sys2Proof.Machine.execDeviceLoadData lp data busError s
  | .postedStoreTimeout lp => Sys2Proof.Machine.execPostedStoreTimeout lp s
  | .deviceAccessTimeout lp => Sys2Proof.Machine.execDeviceAccessTimeout lp s
  | .pmLinkTrained port exp => Sys2Proof.Machine.execPmLinkTrained port exp s
  | .pmTrainTimeout port => Sys2Proof.Machine.execPmTrainTimeout port s
  | .pmLinkDown port => Sys2Proof.Machine.execPmLinkDown port s
  | .pmRequestTimeout port => Sys2Proof.Machine.execPmRequestTimeout port s
  | .mediaEventRecord port fatal => Sys2Proof.Machine.execMediaEventRecord port fatal s
  | .memoryReadData port dev data check poison => Sys2Proof.Machine.execMemoryReadData port dev data check poison s
  | .memoryWriteCmp port dev => Sys2Proof.Machine.execMemoryWriteCmp port dev s
  | .pmPoison src port v => Sys2Proof.Machine.execPmPoison src port v s
  | .sweeperEpoch => Sys2Proof.Machine.execSweeperEpoch s
  | .scrubLine port => Sys2Proof.Machine.execScrubLine port s
  | .pwrfailLow => Sys2Proof.Machine.execPwrfailLow s
  | .pwrfailRise => Sys2Proof.Machine.execPwrfailRise s
  | .pwrfailHighWait si => Sys2Proof.Machine.execPwrfailHighWait si s
  | .warmReturnExpiry si => Sys2Proof.Machine.execWarmReturnExpiry si s
  | .landRequest src => Sys2Proof.Machine.execLandRequest src s
  | .outputsQuiesced => Sys2Proof.Machine.execOutputsQuiesced s
  | .recall modid => Sys2Proof.Machine.execRecall modid s
  | .recallDone modid => Sys2Proof.Machine.execRecallDone modid s
  | .recallTimeout => Sys2Proof.Machine.execRecallTimeout s
  | .lineWritebackDone => Sys2Proof.Machine.execLineWritebackDone s
  | .left modid => Sys2Proof.Machine.execLeft modid s
  | .wbkAckTimeout line => Sys2Proof.Machine.execWbkAckTimeout line s
  | .gpfPhase1Response port => Sys2Proof.Machine.execGpfPhase1Response port s
  | .gpfPhase2Response port dsc => Sys2Proof.Machine.execGpfPhase2Response port dsc s
  | .landingSealed => Sys2Proof.Machine.execLandingSealed s
  | .pwrgoodFall => Sys2Proof.Machine.execPwrgoodFall s
  | .pwrgoodRise modid si => Sys2Proof.Machine.execPwrgoodRise modid si s
  | .modrstAssert => Sys2Proof.Machine.execModrstAssert s
  | .modrstRelease si => Sys2Proof.Machine.execModrstRelease si s
  | .flashReadTimeout slot => Sys2Proof.Machine.execFlashReadTimeout slot s
  | .keelcodeLoad => Sys2Proof.Machine.execKeelcodeLoad s
  | .resumeCommit => Sys2Proof.Machine.execResumeCommit s
  | .landElapsedWrite v => Sys2Proof.Machine.execLandElapsedWrite v s
  | .timebaseMark => Sys2Proof.Machine.execTimebaseMark s
  | .harbourExit src => Sys2Proof.Machine.execHarbourExit src s
  | .vcfEnable src vcf arg0 arg1 => Sys2Proof.Machine.execVcfEnable src vcf arg0 arg1 s
  | .vcfDisable src vcf => Sys2Proof.Machine.execVcfDisable src vcf s
  | .qpGrant src vcf arg0 => Sys2Proof.Machine.execQpGrant src vcf arg0 s
  | .qpReclaim src vcf arg0 => Sys2Proof.Machine.execQpReclaim src vcf arg0 s
  | .vecGrant src vcf arg0 => Sys2Proof.Machine.execVecGrant src vcf arg0 s
  | .vecReclaim src vcf arg0 => Sys2Proof.Machine.execVecReclaim src vcf arg0 s
  | .setShare src vcf arg0 => Sys2Proof.Machine.execSetShare src vcf arg0 s
  | .tgtSync src vcf => Sys2Proof.Machine.execTgtSync src vcf s
  | .funcAssign src arg0 => Sys2Proof.Machine.execFuncAssign src arg0 s
  | .funcRelease src arg0 => Sys2Proof.Machine.execFuncRelease src arg0 s
  | .vcfOpen src vcf v => Sys2Proof.Machine.execVcfOpen src vcf v s
  | .vcfClose src vcf => Sys2Proof.Machine.execVcfClose src vcf s
  | .qcreate src vcf qp => Sys2Proof.Machine.execQcreate src vcf qp s
  | .qdelete src vcf qp => Sys2Proof.Machine.execQdelete src vcf qp s
  | .query src vcf qp => Sys2Proof.Machine.execQuery src vcf qp s
  | .sqDoorbell vcf qp tail => Sys2Proof.Machine.execSqDoorbell vcf qp tail s
  | .cqDoorbell vcf qp head => Sys2Proof.Machine.execCqDoorbell vcf qp head s
  | .descriptorFetch pool => Sys2Proof.Machine.execDescriptorFetch pool s
  | .descriptorAccept pool => Sys2Proof.Machine.execDescriptorAccept pool s
  | .nop op => Sys2Proof.Machine.execNop op s
  | .read op => Sys2Proof.Machine.execRead op s
  | .write op => Sys2Proof.Machine.execWrite op s
  | .mirrorWrite op => Sys2Proof.Machine.execMirrorWrite op s
  | .copy op => Sys2Proof.Machine.execCopy op s
  | .compress op => Sys2Proof.Machine.execCompress op s
  | .decompress op => Sys2Proof.Machine.execDecompress op s
  | .cipher op => Sys2Proof.Machine.execCipher op s
  | .chain op => Sys2Proof.Machine.execChain op s
  | .barrier op => Sys2Proof.Machine.execBarrier op s
  | .stepComplete op => Sys2Proof.Machine.execStepComplete op s
  | .completionAccepted op => Sys2Proof.Machine.execCompletionAccepted op s
  | .coalesceTimeout pool => Sys2Proof.Machine.execCoalesceTimeout pool s
  | .nvmeCompletion op sct sc => Sys2Proof.Machine.execNvmeCompletion op sct sc s
  | .nvmeTimeout op => Sys2Proof.Machine.execNvmeTimeout op s
  | .controllerResetDone ctrlr verified => Sys2Proof.Machine.execControllerResetDone ctrlr verified s
  | .pathWaitExpiry op => Sys2Proof.Machine.execPathWaitExpiry op s
  | .nvmeUpstreamAccess ctrlr write addr data len => Sys2Proof.Machine.execNvmeUpstreamAccess ctrlr write addr data len s
  | .upstreamDma func write addr data len poison => Sys2Proof.Machine.execUpstreamDma func write addr data len poison s
  | .xsync src x => Sys2Proof.Machine.execXsync src x s
  | .xopen src x => Sys2Proof.Machine.execXopen src x s
  | .xclose src x => Sys2Proof.Machine.execXclose src x s
  | .xquery src x => Sys2Proof.Machine.execXquery src x s
  | .hello h p => Sys2Proof.Machine.execHello h p s
  | .helloAck h p => Sys2Proof.Machine.execHelloAck h p s
  | .refuse h reason => Sys2Proof.Machine.execRefuse h reason s
  | .close h => Sys2Proof.Machine.execClose h s
  | .flxWrite h r data => Sys2Proof.Machine.execFlxWrite h r data s
  | .readReq h r => Sys2Proof.Machine.execReadReq h r s
  | .readData h r data => Sys2Proof.Machine.execReadData h r data s
  | .flxStatus h rqn status count => Sys2Proof.Machine.execFlxStatus h rqn status count s
  | .ack h => Sys2Proof.Machine.execAck h s
  | .keepalive h => Sys2Proof.Machine.execKeepalive h s
  | .notice h kind => Sys2Proof.Machine.execNotice h kind s
  | .flxRequestDone x rqn => Sys2Proof.Machine.execFlxRequestDone x rqn s
  | .keepaliveDue x => Sys2Proof.Machine.execKeepaliveDue x s
  | .retransmitTimeout x seq => Sys2Proof.Machine.execRetransmitTimeout x seq s
  | .lossLimitExpiry x => Sys2Proof.Machine.execLossLimitExpiry x s
  | .landingWaitExpiry x => Sys2Proof.Machine.execLandingWaitExpiry x s
  | .helloResend x => Sys2Proof.Machine.execHelloResend x s
  | .rejoinTimer x => Sys2Proof.Machine.execRejoinTimer x s
  | .linkReturnTimer x => Sys2Proof.Machine.execLinkReturnTimer x s
  | .flxLinkDown link => Sys2Proof.Machine.execFlxLinkDown link s
  | .flxLinkUp link => Sys2Proof.Machine.execFlxLinkUp link s
  | .cipClaim src engine v => Sys2Proof.Machine.execCipClaim src engine v s
  | .cipRelease src engine => Sys2Proof.Machine.execCipRelease src engine s
  | .force src engine => Sys2Proof.Machine.execForce src engine s
  | .rtuClaim src v => Sys2Proof.Machine.execRtuClaim src v s
  | .getStatus src => Sys2Proof.Machine.execGetStatus src s
  | .attest src => Sys2Proof.Machine.execAttest src s
  | .aliasCert src => Sys2Proof.Machine.execAliasCert src s
  | .idCert src => Sys2Proof.Machine.execIdCert src s
  | .debugOpen src => Sys2Proof.Machine.execDebugOpen src s
  | .debugClose src => Sys2Proof.Machine.execDebugClose src s
  | .provision src => Sys2Proof.Machine.execProvision src s
  | .deploy src => Sys2Proof.Machine.execDeploy src s
  | .retire src => Sys2Proof.Machine.execRetire src s
  | .factoryReset src => Sys2Proof.Machine.execFactoryReset src s
  | .svnCommit src => Sys2Proof.Machine.execSvnCommit src s
  | .wrap src => Sys2Proof.Machine.execWrap src s
  | .wrapRandom src => Sys2Proof.Machine.execWrapRandom src s
  | .faultEvent events => Sys2Proof.Machine.execFaultEvent events s
  | .holdQuietExpiry si => Sys2Proof.Machine.execHoldQuietExpiry si s
  | .fenceQuietExpiry source pass exp peer => Sys2Proof.Machine.execFenceQuietExpiry source pass exp peer s
  | .recoveryDecay => Sys2Proof.Machine.execRecoveryDecay s
  | .collectorError => Sys2Proof.Machine.execCollectorError s
  | .faultClockStop => Sys2Proof.Machine.execFaultClockStop s
  | .fcInject src v => Sys2Proof.Machine.execFcInject src v s
  | .fcRaise src v => Sys2Proof.Machine.execFcRaise src v s
  | .fcSrcCfgWrite src source v => Sys2Proof.Machine.execFcSrcCfgWrite src source v s
  | .thermUpdate c0 c1 c2 c3 hub ls => Sys2Proof.Machine.execThermUpdate c0 c1 c2 c3 hub ls s
  | .powerUpdate c0 c1 c2 c3 hub => Sys2Proof.Machine.execPowerUpdate c0 c1 c2 c3 hub s
  | .thermtrip => Sys2Proof.Machine.execThermtrip s
  | .thermalShutdown => Sys2Proof.Machine.execThermalShutdown s
  | .watchBoundary => Sys2Proof.Machine.execWatchBoundary s
  | .snap src => Sys2Proof.Machine.execSnap src s
  | .watchUsWrite src v => Sys2Proof.Machine.execWatchUsWrite src v s
  | .dumpComplete => Sys2Proof.Machine.execDumpComplete s
  | .tallySelWrite src n v => Sys2Proof.Machine.execTallySelWrite src n v s
  | .tallyRingWrite src count v => Sys2Proof.Machine.execTallyRingWrite src count v s
  | .sampleCarry lp k => Sys2Proof.Machine.execSampleCarry lp k s
  | .laneClockSet src twin mhz => Sys2Proof.Machine.execLaneClockSet src twin mhz s
  | .voutPoll die mv => Sys2Proof.Machine.execVoutPoll die mv s
  | .pmbusAlert die status => Sys2Proof.Machine.execPmbusAlert die status s
  | .pmbusTimeout die => Sys2Proof.Machine.execPmbusTimeout die s
  | .pmbusArbitrationRetry die => Sys2Proof.Machine.execPmbusArbitrationRetry die s
  | .standbyLoss => Sys2Proof.Machine.execStandbyLoss s
  | .svcSetAddr off => Sys2Proof.Machine.execSvcSetAddr off s
  | .svcWrite v => Sys2Proof.Machine.execSvcWrite v s
  | .svcRead => Sys2Proof.Machine.execSvcRead s
  | .svcPrivateRead count => Sys2Proof.Machine.execSvcPrivateRead count s
  | .setdasa addr => Sys2Proof.Machine.execSetdasa addr s
  | .entdaa addr => Sys2Proof.Machine.execEntdaa addr s
  | .tapReset => Sys2Proof.Machine.execTapReset s
  | .rcRead src off => Sys2Proof.Machine.execRcRead src off s
  | .registerWrite src off v => Sys2Proof.Machine.execRegisterWrite src off v s
  | .undefinedInstruction lp w0 w1 => Sys2Proof.Machine.execUndefinedInstruction lp w0 w1 s
  | .pcieLinkUp link speed width => Sys2Proof.Machine.execPcieLinkUp link speed width s
  | .pcieLinkDown link => Sys2Proof.Machine.execPcieLinkDown link s
  | .controllerFatalStatus ctrlr => Sys2Proof.Machine.execControllerFatalStatus ctrlr s
  | .debugHaltEnd lp => Sys2Proof.Machine.execDebugHaltEnd lp s
  | .jtagProbeAccess acc => Sys2Proof.Machine.execJtagProbeAccess acc s
  | .waitOnTimer lp => Sys2Proof.Machine.execWaitOnTimer lp s
  | .standbyReturn => Sys2Proof.Machine.execStandbyReturn s
  | .landingStoreWriteAck stack => Sys2Proof.Machine.execLandingStoreWriteAck stack s
  | .nonFlorixFrame link => Sys2Proof.Machine.execNonFlorixFrame link s

end Sys2Proof.Machine
end

