-- ==== Sys2Proof/Machine/Step.lean ====
section
/-! DEFINITION. One step of the block: the command at the front of the queue, or, on an empty queue, the passing of one
nanosecond. -/

namespace Sys2Proof.Machine

/-- Whether the timebase counts: while the main rails are good and its clock has not been stopped, but from 0 only once a first cold
start has set it going (R43, R389). -/
def State.timeRuns (s : State) : Bool :=
  s.std.standby && s.std.pwrgood && decide (s.pwr.phase ≠ .off ∨ s.std.modrst) &&
    (s.pwr.unbroken || s.nv.cfg.tbMark.isSome || decide (s.live.time ≠ 0))

/-- One nanosecond passes with no command (R43, R387, R389, R555): the timebase counts where it runs, the fault clock while the
standby domain is powered, and management commands that wait for memory are tried again (R410, R493).  DESIGN CHOICE (log 2). -/
def State.idle (s : State) : State :=
  let s : State := if s.std.standby then { s with std := { s.std with clock := s.std.clock + 1 } } else s
  let s : State := if s.timeRuns then { s with live := { s.live with time := s.live.time + 1 } } else s
  s.cmdRetry

/-- One step. -/
def step (s : State) : Host.Outcome State Fault Refusal :=
  match s.pending with
  | [] => .next s.idle
  | c :: r => exec c { s with pending := r }

/-- The state with the command a word spells put at the front of its queue. -/
def State.withFetchWord (s : State) (nbits w : Nat) : State :=
  match decodeTableWord nbits w with
  | some c => { s with pending := c :: s.pending }
  | none => s

end Sys2Proof.Machine
end

