-- ==== Sys2Proof/Safety.lean ====
section
/-! DEFINITION. The terms the claims are stated in: when an instruction starts, what it leaves alone, and the invariants. -/

namespace Sys2Proof.Machine

/-! ## Instructions -/

/-- The state in which an instruction of `words` words begins its own effect: the LP can take it (R145), in compatibility mode
or not (R205), the window has room (R211, R662), and its words are fetched (R71); `none` where something else comes first. -/
def State.begun (s : State) (compat : Bool) (lp : LpId) (words need : Nat) : Option State :=
  if ¬ s.lpReady lp ∨ s.compat lp ≠ compat ∨ s.boundaryDue lp ∨ (s.lpv lp).micro.isSome ∨ (s.lp lp).abandoned.isSome then none
  else
    let s0 := s.beginInstr lp need
    if s.retriedTo s0 lp then none
    else match (fetchWords lp words (s0.slip lp).pc).run s0 with
      | .ok _ s1 => some s1
      | .error _ _ => none

/-- The state in which an instruction of the architecture begins its own effect; `none` also where USTATE.ACTIVE is set (R199), or
its encoding names no instruction (R98). -/
def State.startOf (s : State) (i : Instr) (lp : LpId) (need : Nat) : Option State :=
  match s.begun false lp (encode i).length need with
  | some s1 => if bit (s1.slip lp).ustate 16 ∨ ¬ i.wf then none else some s1
  | none => none

/-- Nothing but one LP, the tally's counters and the count of free values differs. -/
def State.onlyLp (s t : State) (lp : LpId) : Prop :=
  t = { s with live := { s.live with lps := t.live.lps, tally := t.live.tally }
               vol := { s.vol with lps := t.vol.lps, sampleDue := t.vol.sampleDue }
               free := t.free } ∧
    ∀ m : LpId, m ≠ lp → t.lp m = s.lp m ∧ t.lpv m = s.lpv m

/-- Of that LP nothing but its running slip, a single step that falls due and its window's bookkeeping differs: no per-LP register, no
other slip, nothing in flight; its gangway store buffer takes the stores `g`. -/
def State.onlySlip (s t : State) (lp : LpId) (g : List GStore) : Prop :=
  s.onlyLp t lp ∧ t.lp lp = { s.lp lp with slips := (t.lp lp).slips, stepDue := (t.lp lp).stepDue } ∧
    (∀ k : Fin 8, k ≠ (s.lp lp).run → t.slipN lp k = s.slipN lp k) ∧
    t.lpv lp = { s.lpv lp with win := (t.lpv lp).win, items := (t.lpv lp).items } ∧
    (t.lpv lp).gangway = (s.lpv lp).gangway ++ g

/-- An instruction retires, changes its slip as `f` says and stores `g`; the dirty bits and the shadow are the slip's
bookkeeping (R166, R173). -/
def State.retiresAs (s t : State) (lp : LpId) (g : List GStore) (f : Slip → Slip) : Prop :=
  s.onlySlip t lp g ∧ ∃ d sh, t.slip lp = { f (s.slip lp) with dirty := d, shadow := sh }

/-- Wherever instruction `i` begins with `pre`, it retires, changes its slip as `f` says, and changes nothing else. -/
def Runs (i : Instr) (lp : LpId) (pre : State → Prop) (f : State → Slip → Slip) : Prop :=
  ∀ s s1 : State, s.startOf i lp 0 = some s1 → pre s1 → ∃ t, exec i s = .next t ∧ s1.retiresAs t lp [] (f s1)

/-- Wherever `i` begins with `pre` and no injected mismatch waits, it retires and changes its slip as `f` says; then its window
closes with `reason` and matches, so that its stores leave the twin, and only then its effect `post` outside the slip happens
(R212, R213).  While one of those stores has to wait for its line's open transaction the instruction waits too, the state as it was
(R259, R303); it never has to where the LP has stored nothing. -/
def RunsSync (i : Instr) (lp : LpId) (need reason : Nat) (pre : State → Prop) (g : State → List GStore) (f : State → Slip → Slip)
    (post : State → State → State) : Prop :=
  ∀ s s1 : State, s.startOf i lp need = some s1 → pre s1 → s1.injectDue lp = false →
    ∃ u, s1.retiresAs u lp (g s1) (f s1) ∧
      exec i s = .next (if (u.syncWin lp reason).released lp then post s1 (u.syncWin lp reason) else s) ∧
      ((s1.lpv lp).gangway = [] → g s1 = [] → (u.syncWin lp reason).released lp = true)

/-- Wherever `i` begins with `pre`, it raises the exception `e` of its slip's state as `pc` leaves it, with itself as IWORD. -/
def Raises (i : Instr) (lp : LpId) (need : Nat) (pre : State → Prop) (e : State → Exc) : Prop :=
  ∀ s s1 : State, s.startOf i lp need = some s1 → pre s1 →
    exec i s = .next (s1.takeException lp { e s1 with pc := (s1.slip lp).pc, iword := iwordOf i })

/-- A slip with one general register changed. -/
def Slip.put (x : Slip) (r : Reg) (v : Word) : Slip := { x with g := x.g.set r.val v r.isLt }

/-- A slip with one general result, its PC `n` words on. -/
def Slip.result (x : Slip) (d : Reg) (v : Word) (n : Nat := 1) : Slip :=
  { x with g := x.g.set d.val v d.isLt, pc := x.pc + BitVec.ofNat 64 (4 * n) }

/-- A slip with one floating result. -/
def Slip.resultF (x : Slip) (d : Reg) (v : Word) (n : Nat := 1) : Slip :=
  { x with f := x.f.set d.val v d.isLt, pc := x.pc + BitVec.ofNat 64 (4 * n) }

/-- A slip that only moves on. -/
def Slip.moveOn (x : Slip) (n : Nat := 1) : Slip := { x with pc := x.pc + BitVec.ofNat 64 (4 * n) }

/-! ## Accesses -/

/-- An access of `n` bytes at offset `o` through a bank forms, passes its checks as the pieces `l`, and is no device access. -/
def State.formed (s : State) (lp : LpId) (bank : BankNo) (o : Word) (n : Nat) (k : AKind) (size : Nat) (l : List (Nat × Nat)) : Prop :=
  s.formAccess lp bank o n k size = .ok l ∧ s.isDevice lp bank l = false

/-- The memory system answers a read of pieces at offset `o` of a bank with the bytes `d` and leaves `s2`. -/
def State.reads (s : State) (lp : LpId) (bank : BankNo) (o fi : Word) (l : List (Nat × Nat)) (d : List Byte) (s2 : State) : Prop :=
  (readFormed lp bank o fi l).run s = .ok d s2

/-- A piece of cacheable memory that the LP's twin holds in its L2, mapped, not moored and not poisoned. -/
def State.holdsPiece (s : State) (lp : LpId) (bank : BankNo) (p : Nat × Nat) : Prop :=
  s.pathOf ((s.slip lp).b.get bank).dev (s.slip lp).level p.1 = .cached ∧ p.1 % 256 + p.2 ≤ 256 ∧
    s.l2Miss (s.lp lp).twin.val (p.1 / 256) (p.1 % 256) p.2 = false ∧ (s.cline (s.lp lp).twin.val (p.1 / 256)).moored = false ∧
    ∃ r, s.lineRef (p.1 / 256) = some r ∧ s.linePoison r = false

/-- Checking is on and a window is open. -/
def State.checking (s : State) (lp : LpId) : Prop := (s.lpv lp).unchecked = false ∧ (s.lpv lp).win.isSome = true

/-- Bytes cut into the pieces of a range, as stores of one attribute, level and FINFO. -/
def cutStores (scratch : Bool) (level : BitVec 2) (finfo : Word) : List (Nat × Nat) → List Byte → List GStore
  | [], _ => []
  | (a, n) :: r, d => ⟨a, d.take n, scratch, level, false, finfo⟩ :: cutStores scratch level (laterPiece finfo r) r (d.drop n)

/-- The stores an instruction puts into its gangway store buffer for bytes `d` at pieces `l` through a bank (R75, R95, R144, R215). -/
def State.storesAt (s : State) (lp : LpId) (bank : BankNo) (finfo : Word) (l : List (Nat × Nat)) (d : List Byte) : List GStore :=
  cutStores (!((s.slip lp).b.get bank).dur) (s.slip lp).level finfo l d

/-- An instruction has put the bytes `d` at the pieces `l`, offset `o` of a bank, into its gangway store buffer, and what missed in the
L2 has trained the stride detectors (R215, R241). -/
def State.stored (s u : State) (lp : LpId) (bank : BankNo) (o fi : Word) (l : List (Nat × Nat)) (d : List Byte) : Prop :=
  ∃ v, s.onlySlip v lp (s.storesAt lp bank fi l d) ∧ v.slip lp = s.slip lp ∧ u = v.trainMisses lp bank o (s.missesOf lp 0 l)

/-- Wherever instruction `i`, needing `need` gangway entries, begins with `pre`, it stores `d` at the pieces `l`, retires, changes its
slip as `f` says, and changes nothing else. -/
def RunsStore (i : Instr) (lp : LpId) (need : Nat) (pre : State → Prop) (bank : BankNo) (o : State → Word) (fi : Word)
    (l : State → List (Nat × Nat)) (d : State → List Byte) (f : State → Slip → Slip) : Prop :=
  ∀ s s1 : State, s.startOf i lp need = some s1 → pre s1 →
    ∃ u t, s1.stored u lp bank (o s1) fi (l s1) (d s1) ∧ exec i s = .next t ∧ u.retiresAs t lp [] (f s1)

/-- The words of a displacement's form (R84). -/
def dispWords : Disp → Nat
  | .short _ => 1
  | .long _ => 2

/-! ## Invariants -/

/-- Main memory, as the agents read it and as the expanders hold it, and the landing store's own bytes are in canonical form. -/
def State.memOk (s : State) : Bool :=
  Memory.wf s.mem.cur && Memory.wf s.mem.media && Map.wf s.nv.lsRaw none

/-- Every table a landing saves lists its keys in rising order. -/
def Live.tidy (v : Live) : Bool :=
  v.regs.sorted && v.stats.sorted && v.ch.vcfs.sorted && v.ch.qps.sorted && v.ch.ops.sorted && v.xs.sorted

/-- A slot whose landed image, if it has one, is in canonical form. -/
def Slot.tidy (x : Slot) : Bool := match x.image with | some v => v.tidy | none => true

/-- The canonical forms: memory, its poison and checks, the registers of both domains, the copies, the homes and the manifest, the
channel's and the crossings' tables, the journal, the park areas, the landing store's write counts and failing lines, the landed
images. -/
def State.tidy (s : State) : Bool :=
  s.memOk && s.mem.poison.sorted && s.mem.mpoison.sorted && s.mem.checks.sorted && s.live.tidy && s.std.fc.sorted &&
    s.vol.caches.dir.sorted && s.vol.caches.homes.sorted && s.vol.caches.manifest.sorted && s.vol.steps.sorted &&
    s.nv.journal.sorted && s.nv.parks.sorted && s.nv.lsCount.sorted && s.nv.lsBad.sorted &&
    s.vol.caches.l1.sorted && s.vol.caches.plru.sorted && s.nv.slotA.tidy && s.nv.slotB.tidy

end Sys2Proof.Machine
end

