-- ==== Sys2Proof/Certificates/Slice0/Obligations.lean ====
section
/-! DEFINITION. The statements about the model.  An instruction's statement begins where the instruction begins its own effect
(`State.startOf`); what it says of the next state is its whole effect (`Runs`, `RunsSync`).  Statements of several parts join
them with `∧`. -/

open Sys2Proof Sys2Proof.Machine

/-! ## Instructions of a logical processor -/

/-- R99: each integer operation runs from every state it begins in, writes the result its row gives, and changes nothing else. -/
def Obligations.IntegerOperationsWriteTheirResult : Prop :=
  ∀ (lp : LpId) (d a b : Reg),
    let two (i : Instr) (f : Word → Word → Word) :=
      Runs i lp (fun _ => True) (fun _ x => x.result d (f (x.g.get a) (x.g.get b)))
    let one (i : Instr) (f : Word → Word) := Runs i lp (fun _ => True) (fun _ x => x.result d (f (x.g.get a)))
    two (.add lp d a b) (fun x y => BitVec.ofNat 64 (x.toNat + y.toNat)) ∧
    two (.sub lp d a b) (fun x y => BitVec.ofInt 64 (x.toInt - y.toInt)) ∧
    two (.and lp d a b) (fun x y => x &&& y) ∧
    two (.or lp d a b) (fun x y => x ||| y) ∧
    two (.xor lp d a b) (fun x y => x ^^^ y) ∧
    two (.andn lp d a b) (fun x y => x &&& ~~~ y) ∧
    two (.sll lp d a b) (fun x y => BitVec.ofNat 64 (x.toNat * 2 ^ (y.toNat % 64))) ∧
    two (.srl lp d a b) (fun x y => BitVec.ofNat 64 (x.toNat / 2 ^ (y.toNat % 64))) ∧
    two (.sra lp d a b) (fun x y => BitVec.ofInt 64 (x.toInt / 2 ^ (y.toNat % 64))) ∧
    two (.ror lp d a b) (fun x y => x >>> (y.toNat % 64) ||| x <<< (64 - y.toNat % 64)) ∧
    two (.cmpeq lp d a b) (fun x y => if x = y then 1 else 0) ∧
    two (.cmplt lp d a b) (fun x y => if x.toInt < y.toInt then 1 else 0) ∧
    two (.cmpltu lp d a b) (fun x y => if x.toNat < y.toNat then 1 else 0) ∧
    one (.sextb lp d a) (fun x => BitVec.ofInt 64 (x.setWidth 8).toInt) ∧
    one (.sexth lp d a) (fun x => BitVec.ofInt 64 (x.setWidth 16).toInt) ∧
    one (.sextw lp d a) (fun x => BitVec.ofInt 64 (x.setWidth 32).toInt) ∧
    one (.clz lp d a) (fun x => BitVec.ofNat 64 (((List.range 64).takeWhile (fun i => !x.getMsbD i)).length)) ∧
    one (.popc lp d a) (fun x => BitVec.ofNat 64 (((List.range 64).filter (fun i => x.getLsbD i)).length)) ∧
    two (.min lp d a b) (fun x y => if x.toInt ≤ y.toInt then x else y) ∧
    two (.max lp d a b) (fun x y => if x.toInt ≤ y.toInt then y else x) ∧
    two (.minu lp d a b) (fun x y => if x.toNat ≤ y.toNat then x else y) ∧
    two (.maxu lp d a b) (fun x y => if x.toNat ≤ y.toNat then y else x)

/-- R103: each multiply and divide with a divisor other than 0 writes the result its row gives, and changes nothing else. -/
def Obligations.MultiplyAndDivideWriteTheirResult : Prop :=
  ∀ (lp : LpId) (d a b : Reg),
    let two (i : Instr) (pre : Word → Prop) (f : Word → Word → Word) :=
      Runs i lp (fun s => pre ((s.slip lp).g.get b)) (fun _ x => x.result d (f (x.g.get a) (x.g.get b)))
    two (.mul lp d a b) (fun _ => True) (fun x y => BitVec.ofNat 64 (x.toNat * y.toNat)) ∧
    two (.mulh lp d a b) (fun _ => True) (fun x y => (x.signExtend 128 * y.signExtend 128).extractLsb' 64 64) ∧
    two (.mulhu lp d a b) (fun _ => True) (fun x y => (x.setWidth 128 * y.setWidth 128).extractLsb' 64 64) ∧
    two (.div lp d a b) (fun y => y ≠ 0) (fun x y => BitVec.ofInt 64 (x.toInt.tdiv y.toInt)) ∧
    two (.divu lp d a b) (fun y => y ≠ 0) (fun x y => BitVec.ofNat 64 (x.toNat / y.toNat)) ∧
    two (.rem lp d a b) (fun y => y ≠ 0) (fun x y => x - BitVec.ofInt 64 (x.toInt.tdiv y.toInt) * y) ∧
    two (.remu lp d a b) (fun y => y ≠ 0) (fun x y => BitVec.ofNat 64 (x.toNat % y.toNat))

/-- R104: division raises no exception, and its special cases give the results of the table. -/
def Obligations.DivisionSpecialCases : Prop :=
  ∀ (lp : LpId) (d a b : Reg),
    let two (i : Instr) (pre : Word → Word → Prop) (f : Word → Word) :=
      Runs i lp (fun s => pre ((s.slip lp).g.get a) ((s.slip lp).g.get b)) (fun _ x => x.result d (f (x.g.get a)))
    two (.div lp d a b) (fun _ y => y = 0) (fun _ => 0xFFFFFFFFFFFFFFFF) ∧
    two (.divu lp d a b) (fun _ y => y = 0) (fun _ => 0xFFFFFFFFFFFFFFFF) ∧
    two (.rem lp d a b) (fun _ y => y = 0) (fun x => x) ∧
    two (.remu lp d a b) (fun _ y => y = 0) (fun x => x) ∧
    two (.div lp d a b) (fun x y => x = 0x8000000000000000 ∧ y = 0xFFFFFFFFFFFFFFFF) (fun _ => 0x8000000000000000) ∧
    two (.rem lp d a b) (fun x y => x = 0x8000000000000000 ∧ y = 0xFFFFFFFFFFFFFFFF) (fun _ => 0) ∧
    (∀ i ∈ [Instr.div lp d a b, .divu lp d a b, .rem lp d a b, .remu lp d a b],
      ∀ s s1 : State, s.startOf i lp 0 = some s1 → ∃ t v, exec i s = .next t ∧ s1.retiresAs t lp [] (fun x => x.result d v))

/-- R101: each immediate form, short and long, writes the result its row gives. -/
def Obligations.ImmediateFormsWriteTheirResult : Prop :=
  ∀ (lp : LpId) (d a : Reg) (v : BitVec 16) (w : BitVec 32) (kind : BitVec 2) (n : BitVec 6),
    let op (i : Instr) (len : Nat) (f : Word → Word) := Runs i lp (fun _ => True) (fun _ x => x.result d (f (x.g.get a)) len)
    op (.addi lp d a (.short v)) 1 (fun x => BitVec.ofInt 64 (x.toInt + v.toInt)) ∧
    op (.addi lp d a (.long w)) 2 (fun x => BitVec.ofInt 64 (x.toInt + w.toInt)) ∧
    op (.andi lp d a (.short v)) 1 (fun x => x &&& BitVec.ofNat 64 v.toNat) ∧
    op (.andi lp d a (.long w)) 2 (fun x => x &&& BitVec.ofNat 64 w.toNat) ∧
    op (.ori lp d a (.short v)) 1 (fun x => x ||| BitVec.ofNat 64 v.toNat) ∧
    op (.ori lp d a (.long w)) 2 (fun x => x ||| BitVec.ofNat 64 w.toNat) ∧
    op (.xori lp d a (.short v)) 1 (fun x => x ^^^ BitVec.ofNat 64 v.toNat) ∧
    op (.xori lp d a (.long w)) 2 (fun x => x ^^^ BitVec.ofNat 64 w.toNat) ∧
    op (.ldi lp d (.short v)) 1 (fun _ => BitVec.ofInt 64 v.toInt) ∧
    op (.ldi lp d (.long w)) 2 (fun _ => BitVec.ofInt 64 w.toInt) ∧
    op (.shi lp d a kind n) 1 (fun x =>
      match kind.toNat with
      | 0 => BitVec.ofNat 64 (x.toNat * 2 ^ n.toNat)
      | 1 => BitVec.ofNat 64 (x.toNat / 2 ^ n.toNat)
      | 2 => BitVec.ofInt 64 (x.toInt / 2 ^ n.toNat)
      | _ => x >>> n.toNat ||| x <<< (64 - n.toNat))

/-- R102, R85: each branch goes to its target where its condition holds and to the next word otherwise, and changes nothing but what
its row names. -/
def Obligations.BranchesGoWhereTheyShould : Prop :=
  ∀ (lp : LpId) (r : Reg) (off : BitVec 21),
    let target (x : Slip) : Word := BitVec.ofInt 64 (x.pc.toInt + 4 * off.toInt)
    let cond (i : Instr) (c : Word → Bool) :=
      Runs i lp (fun _ => True) (fun _ x => { x with pc := if c (x.g.get r) then target x else x.pc + 4 })
    cond (.br lp off) (fun _ => true) ∧
    cond (.bz lp r off) (fun v => decide (v = 0)) ∧
    cond (.bnz lp r off) (fun v => decide (v ≠ 0)) ∧
    cond (.bltz lp r off) (fun v => decide (v.toInt < 0)) ∧
    cond (.bgez lp r off) (fun v => decide (0 ≤ v.toInt)) ∧
    Runs (.bal lp r off) lp (fun _ => True) (fun _ x => { x with g := x.g.set r.val (x.pc + 4) r.isLt, pc := target x }) ∧
    Runs (.jmp lp r) lp (fun _ => True) (fun _ x => { x with pc := BitVec.ofNat 64 ((x.g.get r).toNat / 4 * 4) }) ∧
    Runs (.dbnz lp r off) lp (fun _ => True) (fun _ x =>
      { x with g := x.g.set r.val (x.g.get r - 1) r.isLt, pc := if x.g.get r = 1 then x.pc + 4 else target x })

/-- R87, R89: a CALLM whose whole frame passes its checks stores the tag, the old link and the masked registers in ascending order,
and leaves the link, the stack pointer and the target; nothing else changes. R88, R89: a RETM whose tag matches and whose frame
passes its checks restores the masked registers and the link, drops the frame and goes to the old link; one whose tag differs is an
illegal operation that changes nothing first. -/
def Obligations.CallmAndRetmMoveTheirFrame : Prop :=
  (∀ (lp : LpId) (t : Reg) (mask : BitVec 16) (l : List (Nat × Nat)),
    let saved : List Reg := (List.finRange 32).filter (fun r => decide (8 ≤ r.val ∧ r.val < 24) && mask.getLsbD (r.val - 8))
    let n := saved.length
    let sp (x : Slip) : Word := x.g.get 31 - BitVec.ofNat 64 (16 * ((16 + 8 * n + 15) / 16))
    RunsStore (.callm lp t mask) lp 4
      (fun s => s.checking lp ∧ s.formed lp 14 (sp (s.slip lp)) (16 + 8 * n) .write 7 l)
      14 (fun s => sp (s.slip lp)) (finfoOf 14 .write 7 (16 + 8 * n) 0 0 false) (fun _ => l)
      (fun s => ((BitVec.ofNat 64 mask.toNat :: s.g lp 30 :: saved.map (fun r => s.g lp r)).map wordBytes).flatten)
      (fun _ x => { x with
        g := (x.g.set 30 (x.pc + 4)).set 31 (sp x)
        pc := BitVec.ofNat 64 ((x.g.get t).toNat / 4 * 4) })) ∧
  (∀ (lp : LpId) (mask : BitVec 16) (s s1 s2 s3 : State) (lt l : List (Nat × Nat)) (tag d : List Byte),
    let saved : List Reg := (List.finRange 32).filter (fun r => decide (8 ≤ r.val ∧ r.val < 24) && mask.getLsbD (r.val - 8))
    let n := saved.length
    let word (k : Nat) : Word := BitVec.ofNat 64 (leNat ((d.drop (8 * k)).take 8))
    s.startOf (.retm lp mask) lp 0 = some s1 →
    s1.formAccess lp 14 (s1.g lp 31) 8 .read 7 = .ok lt → s1.reads lp 14 (s1.g lp 31) (finfoOf 14 .read 7 8 0 0 false) lt tag s2 →
    (leNat tag % 2 ^ 64 = mask.toNat →
      s1.formAccess lp 14 (s1.g lp 31) (16 + 8 * n) .read 7 = .ok l →
      s2.reads lp 14 (s1.g lp 31) (finfoOf 14 .read 7 (16 + 8 * n) 0 0 false) l d s3 → s3.slip lp = s1.slip lp →
      ∃ t, exec (.retm lp mask) s = .next t ∧ s3.retiresAs t lp [] (fun x => { x with
        g := Vector.ofFn (fun r : Fin 32 =>
          if r.val = 31 then x.g.get 31 + BitVec.ofNat 64 (16 * ((16 + 8 * n + 15) / 16))
          else if r.val = 30 then word 1
          else if r ∈ saved then word (2 + (saved.takeWhile (fun q => decide (q < r))).length)
          else x.g.get r)
        pc := BitVec.ofNat 64 ((x.g.get 30).toNat / 4 * 4) })) ∧
    (leNat tag % 2 ^ 64 ≠ mask.toNat →
      exec (.retm lp mask) s = .next (s2.takeException lp
        { excOf 0x01 0 0 0 with pc := (s2.slip lp).pc, iword := iwordOf (.retm lp mask) })))

/-- R108, R83, R84: each load whose access forms, is no device access and is answered writes the bytes read, little-endian and
zero-extended, to its register or pair, and changes nothing else but what the memory system did to answer it. -/
def Obligations.LoadsWriteTheBytesRead : Prop :=
  ∀ (lp : LpId) (t base : Reg) (bank : BankNo) (disp : Disp) (s s1 s2 : State) (l : List (Nat × Nat)) (d : List Byte),
    let load (i : Instr) (n : Nat) (f : Slip → Slip) : Prop :=
      let o : Word := s1.g lp base + (match disp with
        | .short v => BitVec.ofInt 64 (v.toInt * n)
        | .long v => BitVec.ofInt 64 v.toInt)
      s.startOf i lp 0 = some s1 → (n = 16 → o.toNat % 16 = 0) → s1.formed lp bank o n .read (sizeCode .read n) l →
      s1.reads lp bank o (finfoOf bank.val .read (sizeCode .read n) n 0 0 false) (s1.asMade n l) d s2 →
      ∃ u, exec i s = .next u ∧ s2.retiresAs u lp [] f
    let v : Word := BitVec.ofNat 64 (leNat d)
    load (.ldb lp t base bank disp) 1 (fun x => x.result t v (dispWords disp)) ∧
    load (.ldh lp t base bank disp) 2 (fun x => x.result t v (dispWords disp)) ∧
    load (.ldw lp t base bank disp) 4 (fun x => x.result t v (dispWords disp)) ∧
    load (.ldd lp t base bank disp) 8 (fun x => x.result t v (dispWords disp)) ∧
    load (.ldfs lp t base bank disp) 4 (fun x => x.resultF t v (dispWords disp)) ∧
    load (.ldf lp t base bank disp) 8 (fun x => x.resultF t v (dispWords disp)) ∧
    load (.ldpair lp t base bank disp) 16 (fun x => { x.result t (BitVec.ofNat 64 (leNat (d.take 8))) (dispWords disp) with
      g := (x.g.set t.val (BitVec.ofNat 64 (leNat (d.take 8))) t.isLt).set (t + 1).val (BitVec.ofNat 64 (leNat (d.drop 8)))
        (t + 1).isLt })

/-- R72, R238: a read of cacheable pieces that the LP's twin holds without poison is answered with the coherent bytes, with the LP's
own buffered stores in front of them (R289), and changes no byte of memory, no cached line, no register of the slip and no store of the
LP. R289: once a store is in an LP's gangway store buffer, its loads
of the bytes it covers give its data, and its loads of every other byte give what they gave before. -/
def Obligations.ReadsGiveOwnStoresThenMemory : Prop :=
  (∀ (s : State) (lp : LpId) (bank : BankNo) (o fi : Word) (l : List (Nat × Nat)), (∀ p ∈ l, s.holdsPiece lp bank p) →
    ∃ s2, s.reads lp bank o fi l ((l.map (fun p => s.lpBytes lp p.1 p.2)).flatten) s2 ∧ s2.mem = s.mem ∧
      s2.vol.caches.dir = s.vol.caches.dir ∧ s2.slip lp = s.slip lp ∧ (s2.lpv lp).gangway = (s.lpv lp).gangway) ∧
  (∀ (s t : State) (lp : LpId) (st : GStore),
    (t.lpv lp).gangway = (s.lpv lp).gangway ++ [st] → (∀ a, t.byteAt a = s.byteAt a) → ∀ a n i, i < n →
      (t.lpBytes lp a n).getD i 0 =
        if st.addr ≤ a + i ∧ a + i < st.addr + st.bytes.length then st.bytes.getD (a + i - st.addr) 0
        else (s.lpBytes lp a n).getD i 0)

/-- R108, R215: with checking on, each store whose access forms and is no device access puts its register's low bytes, at the
address its access forms, into the gangway store buffer; no byte of memory and no register but the PC changes. R109: a pair at an
offset that is no multiple of 16 raises a misaligned exception with that offset in FADDR, before any other check of its access. -/
def Obligations.StoresEnterTheBufferAndPairsAlign : Prop :=
  (∀ (lp : LpId) (t base : Reg) (bank : BankNo) (disp : Disp) (l : List (Nat × Nat)),
    let store (i : Instr) (n : Nat) (d : State → List Byte) : Prop :=
      let o (s : State) : Word := s.g lp base + (match disp with
        | .short v => BitVec.ofInt 64 (v.toInt * n)
        | .long v => BitVec.ofInt 64 v.toInt)
      RunsStore i lp 2
        (fun s => s.checking lp ∧ (n = 16 → (o s).toNat % 16 = 0) ∧ s.formed lp bank (o s) n .write (sizeCode .write n) l)
        bank o (finfoOf bank.val .write (sizeCode .write n) n 0 0 false) (fun s => s.asMade n l) d
        (fun _ x => x.moveOn (dispWords disp))
    store (.stb lp t base bank disp) 1 (fun s => toBytes (s.g lp t).toNat 1) ∧
    store (.sth lp t base bank disp) 2 (fun s => toBytes (s.g lp t).toNat 2) ∧
    store (.stw lp t base bank disp) 4 (fun s => toBytes (s.g lp t).toNat 4) ∧
    store (.std lp t base bank disp) 8 (fun s => toBytes (s.g lp t).toNat 8) ∧
    store (.stfs lp t base bank disp) 4 (fun s => toBytes (s.f lp t).toNat 4) ∧
    store (.stf lp t base bank disp) 8 (fun s => toBytes (s.f lp t).toNat 8) ∧
    store (.stpair lp t base bank disp) 16 (fun s => toBytes (s.g lp t).toNat 8 ++ toBytes (s.g lp (t + 1)).toNat 8)) ∧
  (∀ (lp : LpId) (t base : Reg) (bank : BankNo) (disp : Disp),
    let o (s : State) : Word := memOffset (s.g lp base) 16 disp
    Raises (.ldpair lp t base bank disp) lp 0 (fun s => (o s).toNat % 16 ≠ 0)
      (fun s => excOf 0x03 0 (o s) (finfoOf bank.val .read 4 16 0 0 false)) ∧
    Raises (.stpair lp t base bank disp) lp 2 (fun s => (o s).toNat % 16 ≠ 0)
      (fun s => excOf 0x03 0 (o s) (finfoOf bank.val .write 4 16 0 0 false)))

/-- R111, R112, R294, R309: an atomic at an aligned address whose line is obtained and read stores what its row gives and writes the
old value, zero-extended, to Gd. Where a store waits in its own window, its own among them, the window closes with COUNT and matches
before anything else happens; it never has to wait for a line where no transaction is open. (That the window matches within the row is
the model's choice, log 8.) -/
def Obligations.AtomicsExchangeMemory : Prop :=
  ∀ (lp : LpId) (d a : Reg) (bank : BankNo) (dbl : Bool) (s s1 s2 s3 : State) (l : List (Nat × Nat)) (data : List Byte),
    let n := if dbl then 8 else 4
    let o := s1.g lp a
    let fi := finfoOf bank.val .rmw (sizeCode .rmw n) n 0 0 false
    let old : Nat := leNat data
    let atomic (i : Instr) (new : Option Nat) : Prop :=
      s.startOf i lp 2 = some s1 → o.toNat % n = 0 → s1.formed lp bank o n .rmw (sizeCode .rmw n) l →
      (acquireLine lp bank o fi l).run s1 = .ok () s2 → s2.reads lp bank o fi l data s3 →
      s3.slip lp = s1.slip lp → s3.checking lp → s3.injectDue lp = false → old < 2 ^ (8 * n) →
      ∃ v u, (match new with
          | some x => s3.stored v lp bank o fi l (toBytes x n)
          | none => v = s3) ∧
        v.retiresAs u lp [] (fun x => x.result d (BitVec.ofNat 64 old)) ∧
        exec i s = .next (if new.isSome ∨ s3.ownStores lp then (if (u.syncWin lp 0).released lp then u.syncWin lp 0 else s) else u) ∧
        (s1.vol.caches.txns = [] → s1.vol.caches.grants = [] → (u.syncWin lp 0).released lp = true)
    let g : Nat := (s1.g lp d).toNat % 2 ^ (8 * n)
    atomic (.swap lp d a bank dbl) (some g) ∧
    atomic (.aadd lp d a bank dbl) (some ((old + g) % 2 ^ (8 * n))) ∧
    atomic (.aand lp d a bank dbl) (some (old &&& g)) ∧
    atomic (.aor lp d a bank dbl) (some (old ||| g)) ∧
    atomic (.axor lp d a bank dbl) (some (old ^^^ g)) ∧
    atomic (.cas lp d a bank dbl) (if old = g then some ((s1.g lp (d + 1)).toNat % 2 ^ (8 * n)) else none)

/-- R111, R114, R313, R314: outside harbour mode LRSV reads its line, obtained in M or E, and holds a reservation on it; STCOND
stores and writes 1 only with the reservation on its line, writes 0 otherwise, and clears it either way; its window closes and matches;
in harbour mode LRSV sets none and STCOND fails. (That STCOND's window matches within the row is the model's choice, log 8.) -/
def Obligations.ReservationsGateStcond : Prop :=
  ∀ (lp : LpId) (d a : Reg) (bank : BankNo) (dbl : Bool) (s s1 s2 s3 : State) (l : List (Nat × Nat)) (data : List Byte),
    let n := if dbl then 8 else 4
    let line := (l.headD (0, 0)).1 / 256
    let lr := Instr.lrsv lp d a bank dbl
    let sc := Instr.stcond lp d a bank dbl
    let fr := finfoOf bank.val .read (sizeCode .read n) n 0 0 false
    let fw := finfoOf bank.val .write (sizeCode .write n) n 0 0 false
    (s.startOf lr lp 0 = some s1 → (s1.g lp a).toNat % n = 0 → s1.formed lp bank (s1.g lp a) n .read (sizeCode .read n) l →
      let c := (s1.cline (s1.lp lp).twin.val line).st
      (if s1.harbour ∨ c = .m ∨ c = .e then s2 = s1 else (acquireLine lp bank (s1.g lp a) fr l).run s1 = .ok () s2) →
      s2.reads lp bank (s1.g lp a) fr l data s3 → s3.harbour = s1.harbour →
      ∃ t, exec lr s = .next t ∧
        (if s1.harbour then s3 else s3.setLpv lp { s3.lpv lp with resv := some line }).retiresAs t lp []
          (fun x => x.result d (BitVec.ofNat 64 (leNat data)))) ∧
    (s.startOf sc lp 2 = some s1 → (s1.g lp a).toNat % n = 0 → s1.formed lp bank (s1.g lp a) n .write (sizeCode .write n) l →
      s1.injectDue lp = false → s1.harbour = true ∨ (s1.lpv lp).resv ≠ some line →
      ∃ u, (s1.setLpv lp { s1.lpv lp with resv := none }).retiresAs u lp [] (fun x => x.result d 0) ∧
        exec sc s = .next (if (u.syncWin lp 6).released lp then u.syncWin lp 6 else s) ∧
        ((s1.lpv lp).gangway = [] → (u.syncWin lp 6).released lp = true)) ∧
    (s.startOf sc lp 2 = some s1 → (s1.g lp a).toNat % n = 0 → s1.formed lp bank (s1.g lp a) n .write (sizeCode .write n) l →
      s1.harbour = false → (s1.lpv lp).resv = some line →
      (acquireLine lp bank (s1.g lp a) fw l).run s1 = .ok () s2 → s2.slip lp = s1.slip lp → s2.checking lp →
      s2.injectDue lp = false →
      ∃ v u, s2.stored v lp bank (s1.g lp a) fw l (toBytes (s1.g lp d).toNat n) ∧
        (v.setLpv lp { v.lpv lp with resv := none }).retiresAs u lp [] (fun x => x.result d 1) ∧
        exec sc s = .next (if (u.syncWin lp 6).released lp then u.syncWin lp 6 else s) ∧
        (s1.vol.caches.txns = [] → s1.vol.caches.grants = [] → (u.syncWin lp 6).released lp = true))

/-- R59, R115 to R118, R120: where none of its flags has its trap enable set, each floating-point instruction of rounding mode 0 to
4 writes its result, ORs its flags into FPSR bits 12:8, and changes nothing else. -/
def Obligations.FloatingResultsAndFlags : Prop :=
  ∀ (lp : LpId) (d a b : Reg) (p : Bool),
    let f := fmtOf p
    let ok (fl : BitVec 5) (s : State) : Prop := bits (s.slip lp).fpsr 2 0 < 5 ∧ fl.toNat &&& bits (s.slip lp).fpsr 20 16 = 0
    let flags (x : Slip) (fl : BitVec 5) : Word := x.fpsr ||| BitVec.ofNat 64 (fl.toNat * 2 ^ 8)
    let toF (i : Instr) (r : State → Word × BitVec 5) : Prop :=
      Runs i lp (fun s => ok (r s).2 s) (fun s x => { x.resultF d (r s).1 with fpsr := flags x (r s).2 })
    let toG (i : Instr) (r : State → Word × BitVec 5) : Prop :=
      Runs i lp (fun s => ok (r s).2 s) (fun s x => { x.result d (r s).1 with fpsr := flags x (r s).2 })
    toF (.fadd lp d a b p) (fun s => addFV f (s.rmOf lp) (s.fv lp p a) (s.fv lp p b)) ∧
    toF (.fsub lp d a b p) (fun s => addFV f (s.rmOf lp) (s.fv lp p a) (s.fv lp p b).negate) ∧
    toF (.fmul lp d a b p) (fun s => mulFV f (s.rmOf lp) (s.fv lp p a) (s.fv lp p b)) ∧
    toF (.fdiv lp d a b p) (fun s => divFV f (s.rmOf lp) (s.fv lp p a) (s.fv lp p b)) ∧
    toF (.fsqrt lp d a p) (fun s => sqrtFV f (s.rmOf lp) (s.fv lp p a)) ∧
    toF (.fma lp d a b p) (fun s => fmaFV f (s.rmOf lp) (s.fv lp p a) (s.fv lp p b) (s.fv lp p d)) ∧
    toF (.fms lp d a b p) (fun s => fmaFV f (s.rmOf lp) (s.fv lp p a) (s.fv lp p b) (s.fv lp p d).negate) ∧
    toF (.fnma lp d a b p) (fun s => fmaFV f (s.rmOf lp) (s.fv lp p a).negate (s.fv lp p b) (s.fv lp p d)) ∧
    toF (.fmin lp d a b p) (fun s => minMaxFV f false (s.f lp a) (s.f lp b)) ∧
    toF (.fmax lp d a b p) (fun s => minMaxFV f true (s.f lp a) (s.f lp b)) ∧
    toF (.fneg lp d a p) (fun s => signFV f false (s.f lp a)) ∧
    toF (.fabs lp d a p) (fun s => signFV f true (s.f lp a)) ∧
    toG (.fcmpeq lp d a b p) (fun s => cmpFV true eqFV (s.fv lp p a) (s.fv lp p b)) ∧
    toG (.fcmplt lp d a b p) (fun s => cmpFV false ltFV (s.fv lp p a) (s.fv lp p b)) ∧
    toG (.fcmple lp d a b p) (fun s => cmpFV false (fun x y => ltFV x y || eqFV x y) (s.fv lp p a) (s.fv lp p b)) ∧
    toG (.fclass lp d a p) (fun s => (classFV f (s.fv lp p a), 0)) ∧
    toF (.fcvtf lp d a p) (fun s => cvtFV f (s.rmOf lp) (s.fv lp (!p) a)) ∧
    toG (.fcvti lp d a p) (fun s => toIntFV (s.rmOf lp) (-(2 ^ 63)) (2 ^ 63 - 1) (s.fv lp p a)) ∧
    toG (.fcvtiu lp d a p) (fun s => toIntFV (s.rmOf lp) 0 (2 ^ 64 - 1) (s.fv lp p a)) ∧
    toF (.icvtf lp d a p) (fun s => ofIntFV f (s.rmOf lp) (s.g lp a).toInt) ∧
    toF (.iucvtf lp d a p) (fun s => ofIntFV f (s.rmOf lp) ((s.g lp a).toNat : Int)) ∧
    toF (.movgf lp d a) (fun s => (s.g lp a, 0)) ∧
    toG (.movfg lp d a) (fun s => (s.f lp a, 0))

/-- R59: an addition that raises a flag whose enable is 1 writes no register and no flag, records every flag it raised in CAUSE, and
takes a floating-point trap. R118, R120, R116: a floating result that is a NaN is the canonical one, and a compare with a NaN
operand returns 0. -/
def Obligations.FloatingTrapsAndNaNs : Prop :=
  (∀ (lp : LpId) (d a b : Reg) (p : Bool) (s s1 : State),
    let i := Instr.fadd lp d a b p
    s.startOf i lp 0 = some s1 → bits (s1.slip lp).fpsr 2 0 < 5 →
      let fl := (addFV (fmtOf p) (s1.rmOf lp) (s1.fv lp p a) (s1.fv lp p b)).2
      fl.toNat &&& bits (s1.slip lp).fpsr 20 16 ≠ 0 →
      ∃ dirty, exec i s = .next ((s1.setSlip lp { s1.slip lp with fpsr := setBits (s1.slip lp).fpsr 28 24 fl.toNat, dirty := dirty }).takeException lp
        { excOf 0x0A 0 0 0 with pc := (s1.slip lp).pc, iword := iwordOf i })) ∧
  (∀ (p : Bool) (rm : Rm) (x y z : FV) (w1 w2 : Word),
    let f := fmtOf p
    let nan : Word := if p then 0x7FC00000 else 0x7FF8000000000000
    (x.isNaN ∨ y.isNaN → (addFV f rm x y).1 = nan ∧ (mulFV f rm x y).1 = nan ∧ (divFV f rm x y).1 = nan ∧
      (fmaFV f rm x y z).1 = nan ∧ (cmpFV true eqFV x y).1 = 0 ∧ (cmpFV false ltFV x y).1 = 0) ∧
    (x.isNaN → (sqrtFV f rm x).1 = nan ∧ (cvtFV f rm x).1 = nan) ∧
    (z.isNaN → (fmaFV f rm x y z).1 = nan) ∧
    ((FV.decode f w1).isNaN → signFV f false w1 = (nan, 0) ∧ signFV f true w1 = (nan, 0)) ∧
    ((FV.decode f w1).isNaN ∧ (FV.decode f w2).isNaN → (minMaxFV f false w1 w2).1 = nan ∧ (minMaxFV f true w1 w2).1 = nan))

/-- R125 to R127: packed addition and subtraction of valid operands write the pair and set DOVF on overflow, and an invalid nibble
raises a data check that names the first. R124, R127: the result of a packed operation, read as an operand of the same length, is
the true result's magnitude modulo 10^L with the true result's sign. -/
def Obligations.PackedDecimalResultsAreExact : Prop :=
  (∀ (lp : LpId) (d a b : Reg) (len : BitVec 5),
    let x (s : State) := nibbles (s.g lp a) (s.g lp (a + 1))
    let y (s : State) := nibbles (s.g lp b) (s.g lp (b + 1))
    let packed (i : Instr) (sum : State → Int) : Prop :=
      Runs i lp (fun s => badNibble (x s) = none ∧ badNibble (y s) = none)
        (fun s q =>
          let r := decResult (sum s) len.toNat
          { q.moveOn with g := (q.g.set d.val r.1.1 d.isLt).set (d + 1).val r.1.2 (d + 1).isLt
                          fpsr := if 10 ^ len.toNat ≤ (sum s).natAbs then setBits q.fpsr 13 13 1 else q.fpsr }) ∧
      (∀ k, Raises i lp 0 (fun s => badNibble (x s) = some k) (fun _ => excOf 0x08 k 0 0)) ∧
      (∀ k, Raises i lp 0 (fun s => badNibble (x s) = none ∧ badNibble (y s) = some k) (fun _ => excOf 0x08 (32 + k) 0 0))
    packed (.pka lp d a b len) (fun s => decValue (x s) len.toNat + decValue (y s) len.toNat) ∧
    packed (.pks lp d a b len) (fun s => decValue (x s) len.toNat - decValue (y s) len.toNat)) ∧
  (∀ (v : Int) (len : Nat), 1 ≤ len → len ≤ 31 →
    let r := (decResult v len).1
    let n := nibbles r.1 r.2
    badNibble n = none ∧ decValue n len = (if v < 0 then -((v.natAbs % 10 ^ len : Nat) : Int) else ((v.natAbs % 10 ^ len : Nat) : Int)))

/-- R129: a long instruction of length 0 completes at once: it moves on, with no access and no other effect. R128 to R131: one step
of a long instruction covers the lesser of its length and the rest of its anchor's 4 KiB; it reads its operands, stores what its row
gives, advances its offsets and decreases its length by the bytes done, and goes on to the next word when it is done. R131: where a
MOVL's destination and source do not overlap, the bytes it stores are the source's. -/
def Obligations.LongInstructionsStepToTheirEnd : Prop :=
  (∀ (lp : LpId) (d a b : Reg) (p q : BankNo),
    let zero (i : Instr) (need : Nat) : Prop :=
      ∀ s s1 : State, s.startOf i lp need = some s1 → s1.g lp b = 0 →
        ∃ t, exec i s = .next t ∧ s1.retiresAs t lp [] (fun x => x.moveOn)
    zero (.movl lp d a b p q) 64 ∧ zero (.cmpl lp d a b p q) 0 ∧ zero (.trnl lp d a b p q) 64 ∧ zero (.cksm lp d a b p q) 0) ∧
  (∀ (lp : LpId) (d a b : Reg) (p q : BankNo) (s s1 s2 s3 : State) (ld ls : List (Nat × Nat)) (x y : List Byte),
    let len (anchor : Reg) : Nat := min (s1.g lp b).toNat (4096 - (s1.g lp anchor).toNat % 4096)
    let bank (k : BankNo) (o : Word) (m : Nat) (kd : AKind) : Prop := ∃ z, bankForm ((s1.slip lp).b.get k) o.toNat m kd = .ok z
    let free (k : BankNo) (l : List (Nat × Nat)) : Prop := s1.isDevice lp k l = false
    let step (i : Instr) (k : Nat) (kd : AKind) (offs : List Reg) (s' : State) (out : List Byte) : Prop :=
      ∃ u t, s'.stored u lp p (s1.g lp d) (stepInfo p kd k) ld out ∧ exec i s = .next t ∧ u.retiresAs t lp [] (fun w =>
        let w := offs.foldl (fun (v : Slip) (r : Reg) => v.put r (v.g.get r + BitVec.ofNat 64 k)) w
        let w := w.put b (w.g.get b - BitVec.ofNat 64 k)
        if k = (s1.g lp b).toNat then w.moveOn else w)
    s1.g lp b ≠ 0 →
    (let i := Instr.movl lp d a b p q
     let n := len d
     s.startOf i lp 64 = some s1 → bank p (s1.g lp d) n .write → bank q (s1.g lp a) n .read →
      s1.formAccess lp p (s1.g lp d) n .write 7 = .ok ld → s1.formAccess lp q (s1.g lp a) n .read 7 = .ok ls → free p ld →
      s1.reads lp q (s1.g lp a) (stepInfo q .read n) ls x s2 → s2.slip lp = s1.slip lp → s2.checking lp →
      step i n .write [d, a] s2 (moveBytes (indexPieces 0 ld) ((pieceBytes ls).zip x) 0 #[]).toList) ∧
    (let i := Instr.cmpl lp d a b p q
     let n := len d
     s.startOf i lp 0 = some s1 → bank p (s1.g lp d) n .read → bank q (s1.g lp a) n .read →
      s1.formAccess lp p (s1.g lp d) n .read 7 = .ok ld → s1.formAccess lp q (s1.g lp a) n .read 7 = .ok ls → free p ld →
      free q ls → s1.reads lp p (s1.g lp d) (stepInfo p .read n) ld x s2 → s2.reads lp q (s1.g lp a) (stepInfo q .read n) ls y s3 →
      s3.slip lp = s1.slip lp → s3.checking lp →
      ∃ t, exec i s = .next t ∧ s3.retiresAs t lp [] (fun w =>
        let k := (firstDiff x y 0).getD n
        let w := w.put d (w.g.get d + BitVec.ofNat 64 k)
        let w := w.put a (w.g.get a + BitVec.ofNat 64 k)
        let w := w.put b (w.g.get b - BitVec.ofNat 64 k)
        if (firstDiff x y 0).isSome ∨ k = (s1.g lp b).toNat then w.moveOn else w)) ∧
    (let i := Instr.trnl lp d a b p q
     let n := len d
     s.startOf i lp 64 = some s1 → bank p (s1.g lp d) n .rmw → bank q (s1.g lp a) 256 .read →
      s1.formAccess lp p (s1.g lp d) n .rmw 7 = .ok ld → s1.formAccess lp q (s1.g lp a) 256 .read 7 = .ok ls → free p ld →
      free q ls → s1.reads lp p (s1.g lp d) (stepInfo p .rmw n) ld x s2 →
      s2.reads lp q (s1.g lp a) (stepInfo q .read 256) ls y s3 →
      s3.slip lp = s1.slip lp → s3.checking lp →
      step i n .rmw [d] s3
        (tranBytes (indexPieces 0 ld) (pieceBytes ls).toArray y.toArray ((pieceBytes ld).zip x) 0 #[]).toList) ∧
    (let i := Instr.cksm lp d a b p q
     let n := len a
     s.startOf i lp 0 = some s1 → s1.formAccess lp q (s1.g lp a) n .read 7 = .ok ls →
      s1.reads lp q (s1.g lp a) (stepInfo q .read n) ls x s2 → s2.slip lp = s1.slip lp →
      ∃ t, exec i s = .next t ∧ s2.retiresAs t lp [] (fun w =>
        let w := w.put d (BitVec.ofNat 64 (crc32cRaw ((w.g.get d).setWidth 32) x).toNat)
        let w := w.put a (w.g.get a + BitVec.ofNat 64 n)
        let w := w.put b (w.g.get b - BitVec.ofNat 64 n)
        if n = (s1.g lp b).toNat then w.moveOn else w))) ∧
  (∀ (ld : List (Nat × Nat)) (ls : List Nat) (x : List Byte),
    ls.length = x.length → (∀ a ∈ ls, ∀ p ∈ ld, ¬ (p.1 ≤ a ∧ a < p.1 + p.2)) →
      (moveBytes (indexPieces 0 ld) (ls.zip x) 0 #[]).toList = x)

/-- R61, R62, R57, R58: MFC reads the register its number names from a level that may read it; MTC writes the register it names from
a level that may write it, a per-LP register once its window has matched; from any other level, and for any other number, they raise
their exception. (That a window matches within the row is the model's choice, log 8.) -/
def Obligations.ControlRegisterMoves : Prop :=
  ∀ (lp : LpId) (d a : Reg) (c : BitVec 6),
    let mfc := Instr.mfc lp d c
    let mtc := Instr.mtc lp c a
    let at' (n : Nat) (s : State) : Prop := (s.slip lp).level.toNat ≤ n
    (∀ r, ctlOf c = some r →
      Runs mfc lp (at' r.readLevel) (fun s x => x.result d (s.ctlRead lp r)) ∧
      Raises mfc lp 0 (fun s => ¬ at' r.readLevel s) (fun _ => excOf 0x02 0 0 0)) ∧
    (ctlOf c = none → Raises mfc lp 0 (fun _ => True) (fun _ => excOf 0x01 0 0 0) ∧
      Raises mtc lp 0 (fun _ => True) (fun _ => excOf 0x01 0 0 0)) ∧
    (c = 0 →
      Runs mtc lp (fun s => (s.slip lp).level = 1 ∨ (s.slip lp).level = 2) (fun s x => { x.moveOn with ie := bit (s.g lp a) 2 }) ∧
      Runs mtc lp (fun s => (s.slip lp).level = 0 ∧ (bit (s.g lp a) 4 = false ∨ s.ssAllowed (s.lp lp).run = false ∨ (s.slip lp).ss = true))
        (fun s x => { x.moveOn with ie := bit (s.g lp a) 2
                                    ss := if s.ssAllowed (s.lp lp).run then bit (s.g lp a) 4 else x.ss }) ∧
      Raises mtc lp 0 (fun s => (s.slip lp).level = 3) (fun _ => excOf 0x02 0 0 0)) ∧
    (c = 1 →
      Runs mtc lp (fun s => bits (s.g lp a) 2 0 < 5) (fun s x => { x.moveOn with fpsr := s.g lp a &&& fpsrMask }) ∧
      Raises mtc lp 0 (fun s => 5 ≤ bits (s.g lp a) 2 0) (fun _ => excOf 0x01 0 0 0)) ∧
    (∀ r n, ctlOf c = some r → r ≠ .psw → r ≠ .fpsr → r.writeLevel = some n →
      RunsSync mtc lp 0 8 (at' n) (fun _ => []) (fun _ x => x.moveOn)
        (fun s1 t => t.setCtl lp r (s1.g lp a)) ∧
      Raises mtc lp 0 (fun s => ¬ at' n s) (fun _ => excOf 0x02 0 0 0)) ∧
    (∀ r, ctlOf c = some r → r ≠ .psw → r ≠ .fpsr → r.writeLevel = none →
      Raises mtc lp 0 (fun _ => True) (fun _ => excOf 0x01 0 0 0))

/-- R65, R66, R67, R76, R139: what a per-LP register holds once written reads back as its defined fields; a write of TSBP clears its
level's latch, and a write of PART that changes it zeroes every slip but 0 and the running one. R70, R68, R69: MTB, from level S or
a more privileged one, writes both halves of a bank register with its reserved bits 0; MFB reads both halves of one. -/
def Obligations.PerLpAndBankRegistersReadBack : Prop :=
  (∀ (s : State) (lp : LpId) (v : Word),
    (∀ l : BitVec 2, l ≠ 3 → (s.setCtl lp (.tsbp l) v).ctlRead lp (.tsbp l) = v &&& (msk 0 0 ||| msk 51 10) ∧
      ((s.setCtl lp (.tsbp l) v).lp lp).latch l = false) ∧
    (s.setCtl lp .part v).ctlRead lp .part = (if (v &&& msk 5 0) = (s.lp lp).part then (s.lp lp).part else v &&& msk 5 0) ∧
    (∀ (n : Fin 16) (k : Fin 3), (s.setCtl lp (.zx n k) v).ctlRead lp (.zx n k) =
      v &&& (if k = 0 then msk 2 0 ||| msk 51 12 else msk 51 12)) ∧
    ((v &&& msk 5 0) ≠ (s.lp lp).part → ∀ k : Fin 8, k.val ≠ 0 → k ≠ (s.lp lp).run →
      (s.setCtl lp .part v).slipN lp k = Slip.zero)) ∧
  (∀ (lp : LpId) (d a : Reg) (b : BankNo),
    Runs (.mtb lp b a) lp (fun s => (s.slip lp).level.toNat ≤ 2) (fun _ x =>
      { x.moveOn with b := x.b.set b.val ⟨x.g.get a &&& (msk 6 0 ||| msk 51 12), x.g.get (a + 1) &&& msk 47 0⟩ b.isLt }) ∧
    Raises (.mtb lp b a) lp 0 (fun s => (s.slip lp).level = 3) (fun _ => excOf 0x02 0 0 0) ∧
    Runs (.mfb lp d b) lp (fun _ => True) (fun _ x =>
      { x.moveOn with g := (x.g.set d.val (x.b.get b).lo d.isLt).set (d + 1).val (x.b.get b).hi (d + 1).isLt }))

/-- R140, R50: an RFL above P whose TSBP is valid and whose TSB is read, naming a level no more privileged, retires, closes its
window with reason LEVEL and restores that TSB; one that names a more privileged level is a privileged operation; one whose TSBP is
not valid locks the LP up. R140, R139: what an RFL at S or H restores: all registers of the TSB, PC, PSW.LEVEL and IE; SS is 0; the
latch of its level is clear; no other slip and no other LP changes. (What poison in the TSB does is the model's reading, log 27.) -/
def Obligations.RflReturnsAndRestores : Prop :=
  (∀ (lp : LpId) (s s1 s2 : State) (d : List Byte),
    let i := Instr.rfl lp
    let lvl := (s1.slip lp).level
    let tb := (s1.lp lp).tsbp lvl
    s.startOf i lp 0 = some s1 → lvl ≠ 3 →
    (bit tb 0 = true → s1.readBlock lp lvl (bits tb 51 10 * 1024) 1024 = .ok d s2 →
      let saved := bits (leWord ((d.drop 0x308).take 8)) 1 0
      (lvl.toNat ≤ saved → s2.slip lp = s1.slip lp → s2.injectDue lp = false →
        ∃ u, s2.retiresAs u lp [] (fun x => x) ∧ exec i s = .next ((u.closeWin lp 3).rflRestore lp lvl d)) ∧
      (saved < lvl.toNat →
        exec i s = .next (s2.takeException lp { excOf 0x02 0 0 0 with pc := (s2.slip lp).pc, iword := iwordOf i }))) ∧
    (bit tb 0 = false → s1.retryDue lp = false →
      exec i s = .next ((s1.syncWin lp 3).lockUp lp (excOf 0 0 0 0) lvl 2 (bits tb 51 10 * 1024)))) ∧
  (∀ (s : State) (lp : LpId) (lvl : BitVec 2) (d : List Byte), lvl = 1 ∨ lvl = 2 →
    let w (o : Nat) : Word := leWord ((d.drop o).take 8)
    let t := s.rflRestore lp lvl d
    let x := t.slip lp
    (∀ r : Reg, x.g.get r = w (8 * r.val) ∧ x.f.get r = w (0x100 + 8 * r.val)) ∧
    (∀ b : BankNo, (x.b.get b).lo = w (0x200 + 16 * b.val) &&& (msk 6 0 ||| msk 51 12) ∧
      (x.b.get b).hi = w (0x208 + 16 * b.val) &&& msk 47 0) ∧
    x.pc = w 0x300 ∧ x.level = BitVec.ofNat 2 (bits (w 0x308) 1 0) ∧ x.ie = bit (w 0x308) 2 ∧ x.ss = false ∧
    x.ustate = w 0x340 ∧ (t.lp lp).run = (s.lp lp).run ∧ (t.lp lp).latch lvl = false ∧
    (∀ k : Fin 8, k ≠ (s.lp lp).run → t.slipN lp k = s.slipN lp k) ∧ s.onlyLp t lp)

/-- R51, R134, R141: an LVC to a target its level may call enters that level with the next instruction as its saved PC; any other is
an illegal operation. -/
def Obligations.LvcCallsItsTarget : Prop :=
  ∀ (lp : LpId) (target : BitVec 2) (service : BitVec 16) (s s1 : State),
    let i := Instr.lvc lp target service
    let cur := (s1.slip lp).level
    let allowed : Prop := (cur = 3 ∧ target = 2) ∨ (cur = 2 ∧ (target = 1 ∨ target = 0)) ∨ (cur = 1 ∧ target = 0)
    s.startOf i lp 0 = some s1 →
    (allowed → exec i s = .next ((s1.setPc lp ((s1.slip lp).pc + 4)).takeException lp
      { excOf 0x0B 0 0 0 with target := some target, pc := (s1.slip lp).pc + 4,
                              iword := BitVec.ofNat 64 (0x07 * 2 ^ 26 + target.toNat * 2 ^ 21 + service.toNat * 2 ^ 5) })) ∧
    (¬ allowed → exec i s = .next (s1.takeException lp { excOf 0x01 0 0 0 with pc := (s1.slip lp).pc, iword := iwordOf i }))

/-- R135, R137, R139, R50, R315: an exception, where no injected mismatch waits, either locks the LP up or leaves it running at the
handler: at a level no less privileged than before, with that level's latch set, IE and SS 0, in slip 0 at K and in the interrupted
slip otherwise, and without its reservation; only where some transaction is open may it still wait for its entry record. R90, R93 to
R96, R135: an exception taken with checking on that does not lock the LP up leaves its saved PC, FCODE, FADDR, FINFO and IWORD as
stores of the new window. (What poison in the entry record does is the model's reading, log 27.) -/
def Obligations.ExceptionEntryReachesItsHandler : Prop :=
  (∀ (s : State) (lp : LpId) (e : Exc), s.injectDue lp = false → (s.lpv lp).entering = none →
    let t := s.takeException lp e
    (t.lp lp).st = .locked ∨
      ((t.lpv lp).entering.isSome = true ∧ ¬ (s.vol.caches.txns = [] ∧ s.vol.caches.grants = []) ∧ (t.lpv lp).resv = none) ∨
      ((t.lp lp).st = .running ∧ (t.slip lp).level.toNat ≤ (s.slip lp).level.toNat ∧
        (t.lp lp).latch (t.slip lp).level = true ∧ (t.slip lp).ie = false ∧ (t.slip lp).ss = false ∧
        (t.lp lp).run = (if (t.slip lp).level = 0 then 0 else (s.lp lp).run) ∧ (t.lpv lp).resv = none)) ∧
  (∀ (s : State) (lp : LpId) (e : Exc), s.injectDue lp = false → (s.lpv lp).unchecked = false →
    let t := s.takeException lp e
    (t.lp lp).st ≠ .locked →
      ∃ base : Nat → Nat, ∀ o v, (o, v) ∈ [(0x300, e.pc),
          (0x320, BitVec.ofNat 64 (e.cls.toNat + (s.slip lp).level.toNat * 2 ^ 8 + e.sub.toNat * 2 ^ 16)),
          (0x328, e.faddr), (0x330, e.finfo), (0x338, e.iword)] →
        ∃ st ∈ (t.lpv lp).gangway, st.addr = base o ∧ st.bytes = wordBytes v)

/-- R293 to R296: a FENCE with nothing of its own window in the gangway store buffer moves on, once the stores of the window before it
have left; with stores there, and a DSYNC always, it closes its window and has it matched, so that the stores leave; so does an IOSYNC
with no error of its level recorded and no posted store outstanding. R213, R216, R218: a window that closes and matches with no
injected mismatch waiting leaves nothing in the gangway store buffer but what waits for a line's open transaction, and nothing where
none is open, and no register of any slip changes. (That the window matches within the row is the model's choice, log 8.) -/
def Obligations.BarriersAndMatchesReleaseStores : Prop :=
  (∀ lp : LpId,
    (∀ s s1 : State, s.startOf (.fence lp) lp 0 = some s1 → s1.ownStores lp = false → s1.injectDue lp = false →
      ∃ u, s1.retiresAs u lp [] Slip.moveOn ∧
        exec (.fence lp) s = .next (if (u.matchClosed lp).released lp then u.matchClosed lp else s) ∧
        ((s1.lpv lp).gangway = [] → (u.matchClosed lp).released lp = true)) ∧
    (∀ s s1 : State, s.startOf (.fence lp) lp 0 = some s1 → s1.ownStores lp = true → s1.injectDue lp = false →
      ∃ u, s1.retiresAs u lp [] Slip.moveOn ∧
        exec (.fence lp) s = .next (if (u.syncWin lp 0).released lp then u.syncWin lp 0 else s)) ∧
    RunsSync (.dsync lp) lp 0 2 (fun _ => True) (fun _ => []) (fun _ x => x.moveOn) (fun _ t => t) ∧
    RunsSync (.iosync lp) lp 0 2
      (fun s => (s.lpv lp).posted = [] ∧
        ∀ e ∈ (s.lp lp).deferred, e.level ≠ (if (s.slip lp).level = 3 then 2 else (s.slip lp).level))
      (fun _ => []) (fun _ x => x.moveOn) (fun _ t => t)) ∧
  (∀ (s : State) (lp : LpId) (reason : Nat), s.injectDue lp = false →
    let t := s.syncWin lp reason
    (t.lpv lp).gangway = (t.lpv lp).releasing ∧ (s.vol.caches.txns = [] → s.vol.caches.grants = [] → (t.lpv lp).gangway = []) ∧
      ∀ (m : LpId) (k : Fin 8), t.slipN m k = s.slipN m k)

/-- R168, R162, R165, R161: RDSLIP reads another slip's register; TTBIND binds, changes or unbinds an entry or writes 0; TTWAIT
consumes a wake or waits; TTYIELD asks for a choice; SIGNAL raises a source it may raise or writes 0; TIMER sets the compare value,
and raises the timer's source where the value it replaces has been reached (R153).
R161, R154: SIGNAL may raise a source exactly when it is one of 0 to 511 that is ever raised and, at S, an IPS or SOFT source
of the LP's partition. (That the window matches within the row is the model's choice, log 8; the readings of log 29.) -/
def Obligations.TimetableInstructionsAndSignal : Prop :=
  (∀ (lp : LpId) (d a b : Reg) (n : Fin 8) (r : Fin 64),
    Runs (.rdslip lp d n r) lp (fun s => n.val ≠ 0 ∨ (s.slip lp).level = 0) (fun s x => x.result d
      (if s.slipFree lp n then 0
       else if r.val < 32 then (s.slipN lp n).g.get (Fin.ofNat 32 r.val) else (s.slipN lp n).f.get (Fin.ofNat 32 r.val))) ∧
    Raises (.rdslip lp d n r) lp 0 (fun s => n.val = 0 ∧ (s.slip lp).level ≠ 0) (fun _ => excOf 0x02 0 0 0) ∧
    (let part (s : State) : Nat := bits (s.lp lp).part 5 0
     let t (s : State) : Nat := (s.g lp a).toNat
     let v (s : State) : Word := s.g lp b
     let e (s : State) : Task := (s.lp lp).tasks.get (t s) Task.none
     let resident (s : State) : Prop := ∃ k : Fin 8, (s.slipN lp k).task.toNat = t s
     let refused (s : State) : Prop := t s = 0 ∨ 63 < t s ∨ ((e s).valid = true ∧ (e s).part.toNat ≠ part s) ∨
       (resident s ∧ (bit (v s) 3 = false ∨ (e s).addr ≠ (v s &&& msk 51 10))) ∨ bits (v s) 9 4 ≠ 0 ∨ bits (v s) 63 52 ≠ 0
     RunsSync (.ttbind lp d a b) lp 0 8 (fun s => (s.slip lp).level.toNat ≤ 2 ∧ refused s) (fun _ => [])
       (fun _ x => x.result d 0) (fun _ u => u) ∧
     RunsSync (.ttbind lp d a b) lp 0 8 (fun s => (s.slip lp).level.toNat ≤ 2 ∧ ¬ refused s) (fun _ => [])
       (fun _ x => x.result d 1) (fun s u =>
         let new : Task := if bit (v s) 3 then ⟨true, BitVec.ofNat 6 (part s), v s &&& msk 51 10, BitVec.ofNat 3 (bits (v s) 2 0),
            (e s).valid && (e s).wake, (e s).valid && (e s).fillDue, if (e s).valid then (e s).lastRun else 0⟩ else Task.none
         u.setLp lp { u.lp lp with tasks := (u.lp lp).tasks.put (t s) new Task.none })) ∧
    RunsSync (.ttwait lp) lp 0 8 (fun s => s.wakeWaits lp = true) (fun _ => []) (fun _ x => x.moveOn) (fun _ u => u.takeWake lp) ∧
    (∀ s s1 : State, s.startOf (.ttwait lp) lp 0 = some s1 → s1.wakeWaits lp = false → s1.injectDue lp = false →
      ∃ u, exec (.ttwait lp) s = .next u ∧ (u.slip lp).waiting = true ∧ (u.slip lp).pc = (s1.slip lp).pc ∧
        ((s1.lp lp).run = 0 → (u.lp lp).st = .idle)) ∧
    RunsSync (.ttyield lp) lp 0 8 (fun _ => True) (fun _ => []) (fun _ x => x.moveOn)
      (fun _ u => u.setLp lp { u.lp lp with decision := 2 }) ∧
    RunsSync (.signal lp d a) lp 0 8 (fun s => (s.slip lp).level.toNat ≤ 2 ∧ s.mayRaise lp (s.g lp a).toNat = true) (fun _ => [])
      (fun _ x => x.result d 1) (fun s u => u.raise (s.g lp a).toNat) ∧
    RunsSync (.signal lp d a) lp 0 8 (fun s => (s.slip lp).level.toNat ≤ 2 ∧ s.mayRaise lp (s.g lp a).toNat = false) (fun _ => [])
      (fun _ x => x.result d 0) (fun _ u => u) ∧
    RunsSync (.timer lp a) lp 0 8 (fun s => (s.slip lp).level.toNat ≤ 2) (fun _ => []) (fun _ x => x.moveOn)
      (fun s u =>
        let t := (u.lp lp).timer
        let reached : Prop := u.powerState = 0 ∧ u.mainOn = true ∧ lp.val < u.lpCount ∧ t ≠ 0 ∧ t ≤ u.live.time
        (if reached then u.raise (64 + lp.val) else u).setLp lp { u.lp lp with timer := s.g lp a })) ∧
  (∀ (s : State) (lp : LpId) (n : Nat),
    s.mayRaise lp n = true ↔
      n < 512 ∧ ¬ (n < 64 ∧ s.lpCount ≤ n) ∧ ¬ (134 ≤ n ∧ n < 256) ∧
        ((s.slip lp).level = 0 ∨ (s.slip lp).level = 1 ∨
          ((n < 64 ∨ 256 ≤ n) ∧ bits (s.evt n) 23 18 = bits (s.lp lp).part 5 0)))

/-- R166, R167: SPILL stores the dirty groups and the tag of a bound slip and frees it once its window has matched; it leaves a slip
with an unbound context alone; SPILL of slip 0, of the running slip or of a free one is an illegal operation. R163, R167: FILL of a
free slip with a spilled task of the LP's partition, whose block is read with FORMAT 0x05, fills the slip once its window has
matched; the slip then holds the task with the block's registers, all dirty bits 0, at S or P, and waits unless the task's wake bit
is set. (The readings of logs 8, 26 and 29.) -/
def Obligations.SpillAndFillMoveATask : Prop :=
  (∀ (lp : LpId) (n : Fin 8) (l : List (Nat × Nat)),
    let i := Instr.spill lp n
    let there (s : State) : Prop := n.val ≠ 0 ∧ n ≠ (s.lp lp).run ∧ s.slipFree lp n = false
    RunsSync i lp 16 8 (fun s => there s ∧ (s.slip lp).level.toNat ≤ 2 ∧ (s.slipN lp n).unbound = true) (fun _ => [])
      (fun _ x => x.moveOn) (fun _ u => u) ∧
    RunsSync i lp 16 8
      (fun s => there s ∧ (s.slip lp).level.toNat ≤ 2 ∧ (s.slipN lp n).unbound = false ∧ s.checking lp ∧
        s.taskPieces lp ((s.lp lp).tasks.get (s.slipN lp n).task.toNat Task.none).addr.toNat .write = .ok l)
      (fun s => ((((List.range 5).filter (fun g => (s.slipN lp n).dirty.getLsbD g)).map (tsbGroup s lp n)).flatten ++
          [(0x318, tsbTag (s.slipN lp n).dirty true n)]).map
        (fun (w : Nat × Word) => ⟨pieceAddr l w.1, wordBytes w.2, false, (s.slip lp).level, false, tsbInfo .write⟩))
      (fun _ x => x.moveOn) (fun _ u => u.setSlipN lp n { u.slipN lp n with task := 0, dirty := 0, waiting := false }) ∧
    Raises i lp 16 (fun s => ¬ there s) (fun _ => excOf 0x01 0 0 0)) ∧
  ((∀ (lp : LpId) (a : Reg) (n : Fin 8) (s s1 s2 : State) (l : List (Nat × Nat)) (d : List Byte),
    let i := Instr.fill lp a n
    let t := (s1.g lp a).toNat
    let e := (s1.lp lp).tasks.get t Task.none
    s.startOf i lp 0 = some s1 → s1.slipFree lp n = true → 1 ≤ t → t ≤ 63 → e.valid = true → s1.slipOfTask lp t = none →
      e.part.toNat = bits (s1.lp lp).part 5 0 → (s1.slip lp).level.toNat ≤ 2 → s1.taskPieces lp e.addr.toNat .read = .ok l →
      s1.firstBad false 1 (tsbInfo .read) l = none → (readCached lp false (tsbInfo .read) l).run s1 = .ok d s2 →
      tsbFormatOk d = true → s2.injectDue lp = false →
      ∃ u, s2.retiresAs u lp [] Slip.moveOn ∧
        exec i s = .next (if (u.syncWin lp 8).released lp then (u.syncWin lp 8).fillInto lp n t d else s) ∧
        ((s2.lpv lp).gangway = [] → (u.syncWin lp 8).released lp = true)) ∧
  (∀ (s : State) (lp : LpId) (k : Fin 8) (t : Nat) (d : List Byte), t < 64 →
    let w (o : Nat) : Word := leWord ((d.drop o).take 8)
    let x := (s.fillInto lp k t d).slipN lp k
    (∀ r : Reg, x.g.get r = w (8 * r.val) ∧ x.f.get r = w (0x100 + 8 * r.val)) ∧ x.pc = w 0x300 ∧
      x.level = (if bits (w 0x308) 1 0 = 3 then 3 else 2) ∧ x.ie = bit (w 0x308) 2 ∧ x.ss = false ∧ x.dirty = 0 ∧
      x.task.toNat = t ∧ (x.waiting = true ↔ ((s.lp lp).tasks.get t Task.none).wake = false) ∧
      ∀ m : Fin 8, m ≠ k → (s.fillInto lp k t d).slipN lp m = s.slipN lp m))

/-- R144, R145, R157 to R160, R143, R169, R219: at a boundary where it is due and no injected mismatch waits, each asynchronous exception
clears what its delivery clears and is entered with the first instruction not executed as its saved PC. R158, R160: the interrupt an
LP takes next is one it may take now, at the most privileged level of all it may take and then the lowest source. R158, R139, R56: an
interrupt to S or H is delivered only to a slip at that level or a less privileged one, with IE 1 and the latch of the level 0; one
to K whenever LATCH_K is 0. (IWORD and IDLE processors as log 27 reads them.) -/
def Obligations.AsynchronousExceptionsAndTheirOrder : Prop :=
  (∀ (s : State) (lp : LpId),
    let e (cls sub : Nat) (a : Word) (lvl : BitVec 2) (word : Bool) : Exc :=
      { excOf cls sub a 0 with target := some lvl, sync := false, pc := (s.slip lp).pc,
                               iword := if word then s.iwordAt lp else 0 }
    let taken (t : State) (x : Exc) : State := (t.laneItem lp 4 [x.cls]).takeException lp x
    s.retryDue lp = false → (s.lpv lp).micro = none →
    (∀ x, s.asyncReady lp true = true → s.asyncItem lp = 0 → s.irqNext lp = some x →
      exec (.interrupt lp) s = .next (taken
        (match x.held with
          | some h => s.setLp lp { s.lp lp with held := (s.lp lp).held.erase h }
          | none => (s.clearPend x.src).latchAll lp) (e 0x0C x.src 0 (BitVec.ofNat 2 x.lvl) false))) ∧
    (∀ x, s.asyncReady lp false = true → s.asyncItem lp ≠ 1 → s.deferredDue lp = some x →
      exec (.busDeferred lp) s =
        .next (taken (s.dropDeferred lp x.level) { e 0x07 (min x.count 0xFFFF) x.addr x.level true with finfo := x.finfo })) ∧
    (s.asyncReady lp false = true → s.asyncItem lp = 3 →
      exec (.singleStep lp) s = .next (taken (s.setLp lp { s.lp lp with stepDue := false }) (e 0x0D 0 0 0 true))) ∧
    (∀ t, s.asyncReady lp true = true → s.asyncItem lp = 4 → s.fillTask lp = some t →
      exec (.slipOverflow lp) s = .next (taken (s.setFillDue lp t false) (e 0x0E (t + s.leastRecent lp * 256) 0 0 false))) ∧
    (∀ x, s.asyncReady lp false = true → s.ckptDue lp = false → s.linesDue lp = true →
      s.live.linesLost.find? (fun y => decide (y.1 = bits (s.lp lp).part 5 0)) = some x →
      exec (.linesLost lp) s = .next (taken
        { s with live := { s.live with linesLost := s.live.linesLost.filter (fun y => decide (y.1 ≠ bits (s.lp lp).part 5 0)) } }
        (e 0x09 3 x.2 2 true))) ∧
    (s.asyncReady lp true = true → s.ckptDue lp = true →
      let x := e 0x09 4 0 0 true
      let bad := (s.lp lp).ckptDue
      exec (.linesLost lp) s = .next ((((s.setLp lp { s.lp lp with ckptDue := 0 }).syncWin lp 4).entryWin lp
        { x with finfo := bad.setWidth 64 }).saveEnter lp x bad))) ∧
  (∀ (s : State) (lp : LpId),
    (∀ x, s.irqNext lp = some x →
      x ∈ s.irqs lp ∧ ∀ y ∈ s.irqs lp, x.lvl ≤ y.lvl ∧ (x.lvl = y.lvl → x.src ≤ y.src)) ∧
    (s.irqNext lp = none → s.irqs lp = []) ∧
    (∀ m, m < 4096 → s.evtPending m false lp = true → s.irqMay lp (bits (s.evt m) 4 3) (bits (s.evt m) 23 18) = true →
      ⟨bits (s.evt m) 4 3, m, none⟩ ∈ s.irqs lp)) ∧
  (∀ (s : State) (lp : LpId) (x : Irq), x ∈ s.irqs lp →
    (s.lp lp).latch (BitVec.ofNat 2 x.lvl) = false ∧
      (x.held = none → bit (s.evt x.src) 0 = true ∧ bit (s.evt x.src) 1 = true ∧ bits (s.evt x.src) 10 5 = lp.val) ∧
      (x.lvl = 1 ∨ x.lvl = 2 → (s.slip lp).ie = true ∧ x.lvl ≤ (s.slip lp).level.toNat) ∧
      (x.lvl = 2 → bits (s.evt x.src) 23 18 = bits (s.lp lp).part 5 0))

/-- R159, R163, R164, R167, R169: a wake clears its source's PEND, sets its task's wake bit and lets the task's slip run; a switch
due runs the slip the timetable chooses, or idles the LP; a hardware fill loads the task whose wake started it into the lowest free
slip. (The readings of log 29.) -/
def Obligations.WakesSwitchesAndFills : Prop :=
  (∀ (s : State) (source : Fin 4096) (lp : LpId),
    let w := s.evt source.val
    let t := bits w 17 12
    let e := (s.lp lp).tasks.get t Task.none
    bits w 10 5 = lp.val → s.mainOn = true → s.evtPending source.val true lp = true → t ≠ 0 →
      (s.lp lp).st = .running ∨ (s.lp lp).st = .idle → (s.lpv lp).sparing = none → bits (s.lp lp).part 5 0 = bits w 23 18 →
      e.valid = true → e.part.toNat = bits w 23 18 →
      ∃ u, exec (.wakeDelivery source) s = .next u ∧ bit (u.evt source.val) 1 = false ∧
        ((u.lp lp).tasks.get t Task.none).wake = true ∧
        (∀ k, s.slipOfTask lp t = some k → (u.slipN lp k).waiting = false) ∧
        (s.slipOfTask lp t = none → ((u.lp lp).tasks.get t Task.none).fillDue = true) ∧ u.mem = s.mem ∧
        ∀ m : LpId, m ≠ lp → u.lp m = s.lp m) ∧
  (∀ (s : State) (lp : LpId), s.asyncReady lp true = true → s.asyncItem lp = 0 →
    s.irqNext lp = none → s.switchDue lp = true → s.retryDue lp = false → (s.lpv lp).micro = none →
    ∃ u, exec (.slipSwitch lp) s = .next u ∧ (u.lpv lp).resv = none ∧
      match s.choose lp (decide ((s.lp lp).decision = 2)) with
      | some k => (u.lp lp).run = k ∧ (u.lp lp).st = .running
      | none => (u.lp lp).st = .idle) ∧
  (∀ (s s2 : State) (lp : LpId) (t : Nat) (k : Fin 8) (d : List Byte),
    let s1 := (s.syncWin lp 9).setLpv lp { (s.syncWin lp 9).lpv lp with resv := none }
    s.asyncReady lp true = true → s.fillTask lp = some t → s.lowestFree lp = some k →
      s.retryDue lp = false → s1.readBlock lp 2 ((s.lp lp).tasks.get t Task.none).addr.toNat 1024 = .ok d s2 →
      tsbFormatOk d = true → exec (.hardwareFill lp) s = .next ((s2.fillInto lp k t d).unidle lp))

/-- R155, R149, R153, R148, R200: register writes and orders that act on one LP or one source, from an agent that may make them; a compare
value that has been reached raises its source also where a write replaces it first. (A timer row says that its time has come, log 11.) -/
def Obligations.OrdersAndTimersTakeEffect : Prop :=
  ∀ (s : State) (src : Src) (lp : LpId) (v : Word),
    let reached : Prop := s.powerState = 0 ∧ s.mainOn = true ∧ lp.val < s.lpCount ∧ (s.lp lp).timer ≠ 0 ∧ (s.lp lp).timer ≤ s.live.time
    (s.srcMay src 1 = true → v.toNat < 4096 → s.raisable v.toNat = true →
      ∃ t, exec (.evtRaise src v) s = .next t ∧ bit (t.evt v.toNat) 1 = true ∧
        (∀ m, m < 4096 → m ≠ v.toNat → t.evt m = s.evt m) ∧ t.mem = s.mem ∧ t.live.lps = s.live.lps) ∧
    (s.srcMay src 1 = true → lp.val < s.lpCount →
      exec (.lpTimerWrite src lp v) s = .next ((if reached then s.raise (64 + lp.val) else s).setLp lp { s.lp lp with timer := v })) ∧
    (reached →
      ∃ t, exec (.lpTimerFire lp) s = .next t ∧ (t.lp lp).timer = 0 ∧ bit (t.evt (64 + lp.val)) 1 = true ∧ t.mem = s.mem ∧
        ∀ m : LpId, m ≠ lp → t.lp m = s.lp m) ∧
    (let l := s.lp lp
     let free : Prop := s.srcKeel src = true ∧ lp.val < s.lpCount ∧ (s.lpv lp).failed = false ∧ (s.lpv lp).sparing = none
     (free → l.st = .running ∨ l.st = .idle → ∃ t, exec (.stop src lp) s = .next t ∧ (t.lpv lp).freeze = true ∧
       t.lp lp = { l with order := 1 } ∧ t.mem = s.mem) ∧
     (free → (s.lpv lp).entering = none → l.st = .stopped → ∃ t, exec (.start src lp) s = .next t ∧
       t.lp lp = { l with order := 1, st := if (s.slip lp).waiting then .idle else .running } ∧ t.mem = s.mem) ∧
     (∀ d s2, free → (s.lpv lp).entering = none → l.st = .stopped ∨ l.st = .locked → bit l.tsbpK 0 = true →
       ((s.setLp lp { l with order := 1, latS := false, latH := false, latK := false, abandoned := none }).setLpv lp { s.lpv lp with
           resv := none, win := none, micro := none, entering := some (0, excOf 0 0 0 0, 0) }).readBlock lp 0
         (bits l.tsbpK 51 10 * 1024 + 0x400) 64 = .ok d s2 →
       ∃ t, exec (.restart src lp) s = .next t ∧ (t.lp lp).st = .running ∧ (t.lp lp).run = 0 ∧ (t.slip lp).level = 0 ∧
         (t.slip lp).pc = leWord (d.take 8) ∧ (t.lp lp).latK = true ∧ (t.lpv lp).resv = none)) ∧
    (s.tidy = true → s.srcMay src 1 = true → ∃ t, exec (.ucFaultClear src) s = .next t ∧ bit (t.reg (offUc + 8)) 0 = false ∧
      bits (t.reg (offUc + 8)) 47 32 = 0 ∧ t.live.lps = s.live.lps ∧ t.mem = s.mem)

/-- R250, R251: one step of CWB, CINV and CUNLOCK checks its bytes as one read, advances its offset, decreases its length, and acts
on its lines once its window has matched. R252: one step of CLOCK gives a lock tag to each of its lines up to the first that finds
no way free, and stops there. R242, R243, R252: each tag a CLOCK step places is in a locked way of the line's set that no other tag
of the set has; a line unlocked loses its tag alone, and no byte changes. (That a step's window matches within the row is the model's choice, log 8.) -/
def Obligations.MaintenanceAndLockSteps : Prop :=
  (∀ (lp : LpId) (d a : Reg) (b : BankNo) (x : Bool) (l : List (Nat × Nat)),
    let n (s : State) : Nat := min (s.g lp a).toNat (4096 - (s.g lp d).toNat % 4096)
    let step (i : Instr) (lvl : Nat) (free : State → Prop) (eff : State → Nat → State) : Prop :=
      RunsSync i lp 0 8 (fun s => (s.slip lp).level.toNat ≤ lvl ∧ s.g lp a ≠ 0 ∧ s.formed lp b (s.g lp d) (n s) .read 7 l ∧ free s)
        (fun _ => [])
        (fun s q =>
          let q := (q.put d (q.g.get d + BitVec.ofNat 64 (n s))).put a (q.g.get a - BitVec.ofNat 64 (n s))
          if n s = (s.g lp a).toNat then q.moveOn else q)
        (fun _ u => (l.map (fun p => p.1 / 256)).foldl eff u) ∧
      RunsSync i lp 0 8 (fun s => (s.slip lp).level.toNat ≤ lvl ∧ s.g lp a = 0) (fun _ => []) (fun _ q => q.moveOn) (fun _ u => u)
    let noWait (s : State) : Prop := ∀ p ∈ l, s.lineHeld (p.1 / 256) = false
    step (.cwb lp d a b) 3 noWait State.cleanLine ∧ step (.cinv lp d a b) 2 noWait State.invLine ∧
    step (.cunlock lp d a b x) 2 (fun _ => True) (fun s ln => s.unlockLine (s.cacheOf lp x) ln) ∧
    Raises (.cinv lp d a b) lp 0 (fun s => (s.slip lp).level = 3) (fun _ => excOf 0x02 0 0 0) ∧
    Raises (.cunlock lp d a b x) lp 0 (fun s => (s.slip lp).level = 3) (fun _ => excOf 0x02 0 0 0)) ∧
  (∀ (lp : LpId) (d a : Reg) (b : BankNo) (x : Bool) (l : List (Nat × Nat)),
    let i := Instr.clock lp d a b x
    let n (s : State) : Nat := min (s.g lp a).toNat (4096 - (s.g lp d).toNat % 4096)
    let lines := stepLines l
    let k (s : State) : Nat := ((lockLines (s.cacheOf lp x) s lines).2).getD (n s)
    let noWait (s : State) : Prop := s.cacheOn (s.cacheOf lp x) = true → ∀ e ∈ lines, e.2 < k s →
      (s.cline (s.cacheOf lp x) e.1).st = .i → s.txnOpen e.1 = false
    RunsSync i lp 0 8 (fun s => (s.slip lp).level.toNat ≤ 2 ∧ s.g lp a ≠ 0 ∧ s.formed lp b (s.g lp d) (n s) .read 7 l ∧ noWait s)
      (fun _ => [])
      (fun s q =>
        let q := (q.put d (q.g.get d + BitVec.ofNat 64 (k s))).put a (q.g.get a - BitVec.ofNat 64 (k s))
        if k s < n s ∨ k s = (s.g lp a).toNat then q.moveOn else q)
      (fun s u => (lines.filter (fun e => decide (e.2 < k s))).foldl (fun s' e => s'.fillLocked (s.cacheOf lp x) e.1)
        (lockLines (s.cacheOf lp x) u lines).1)) ∧
  (∀ (s : State) (agent ln w : Nat), s.freeWay agent ln = some w →
    w < 16 ∧ 16 - s.lockWays agent ≤ w ∧
      ∀ e ∈ s.live.lockTags, e.1 = agent → cacheSet agent e.2.1 = cacheSet agent ln → e.2.2 ≠ w) ∧
  (∀ (s : State) (agent ln : Nat), (s.unlockLine agent ln).live.lockTags =
      s.live.lockTags.filter (fun e => !decide (e.1 = agent ∧ e.2.1 = ln)) ∧ (s.unlockLine agent ln).mem.cur = s.mem.cur)

/-- R250, R256, R326: after a Clean of a line no copy of it in this module is dirty, and after an Inv there is none; neither changes
the bytes any agent reads of a line that no other module may hold. R253: CTOUCH raises nothing and changes no register but the PC;
CZERO at an aligned offset puts 256 zero bytes into the gangway store buffer and closes its window, and at another offset raises a
misaligned exception. (One coherent value per line: log 5.) -/
def Obligations.LinesAreCleanedTouchedAndZeroed : Prop :=
  (∀ (s : State) (ln : Nat) (r : LineRef), s.vol.caches.dir.sorted = true → s.lineRef ln = some r →
    (s.man ln r.port).holders = 0 →
    (∀ a, a < 128 → ((s.cleanLine ln).cline a ln).st.dirty = false) ∧
    (∀ a, a < 128 → ((s.invLine ln).cline a ln).st = .i) ∧
    (∀ x, (s.cleanLine ln).byteAt x = s.byteAt x ∧ (s.invLine ln).byteAt x = s.byteAt x)) ∧
  (∀ (lp : LpId) (d : Reg) (b : BankNo) (x : Bool) (l : List (Nat × Nat)),
    (∀ s s1 : State, s.startOf (.ctouch lp d b x) lp 0 = some s1 → s1.injectDue lp = false →
      ∃ u t, s1.retiresAs u lp [] Slip.moveOn ∧
        exec (.ctouch lp d b x) s = .next (if (u.syncWin lp 8).released lp then t else s) ∧
        ((s1.lpv lp).gangway = [] → (u.syncWin lp 8).released lp = true) ∧
        ∀ (m : LpId) (k : Fin 8), t.slipN m k = (u.syncWin lp 8).slipN m k) ∧
    RunsSync (.czero lp d b) lp 4 8
      (fun s => s.checking lp ∧ (s.g lp d).toNat % 256 = 0 ∧ s.formed lp b (s.g lp d) 256 .write 7 l)
      (fun s => [⟨(l.headD (0, 0)).1, List.replicate 256 0, !((s.slip lp).b.get b).dur, (s.slip lp).level, true,
          finfoOf b.val .write 7 256 0 0 false⟩])
      (fun _ q => q.moveOn) (fun _ u => u) ∧
    Raises (.czero lp d b) lp 4 (fun s => (s.g lp d).toNat % 256 ≠ 0)
      (fun s => excOf 0x03 0 (s.g lp d) (finfoOf b.val .write 7 256 0 0 false)))

/-! ## Micro-routines and windows -/

/-- R86, R179, R193, R199, R201, R202: a custom instruction of a valid entry at a level it allows clears the micro-registers and
issues the words of its routine; one of no entry is an illegal operation, one at too low a level is privileged; a routine whose
first word ends it retires the instruction in two words. R196 to R199: the micro-state a trap records in a slip resumes the same
routine at the same word, with its loops and its pending branch, and passes the checks of a resume where the word lies in its
region. (Its word budget is the model's, log 10; the readings of log 41.) -/
def Obligations.RoutinesBeginEndAndResume : Prop :=
  (∀ (lp : LpId) (word : BitVec 26) (budget : Nat) (s s1 : State),
    let i := Instr.customInstruction lp word budget
    let w : BitVec 32 := BitVec.ofNat 32 (0x3E * 2 ^ 26 + word.toNat)
    let n := word.toNat % 16
    let e : Word := s1.reg (offUc + 0x400 + 8 * n)
    let enters : Prop := bit e 0 = true ∧ ¬ (bits e 7 4 = 1 ∧ word.toNat.testBit 11 = true) ∧
      ¬ (bits e 7 4 = 2 ∧ word.toNat / 2 ^ 11 % 2 ^ 15 ≠ 0)
    let raises (c : Nat) : Prop := exec i s = .next (s1.takeException lp
      { excOf c 0 0 0 with pc := (s1.slip lp).pc, iword := BitVec.ofNat 64 w.toNat })
    let entered : Slip → Slip := fun x => { x with
      ustate := setBits x.ustate 19 16 0
      uloop0 := 0
      uloop1 := 0
      u := Vector.ofFn (fun r : Fin 16 => if r.val = 15 then BitVec.ofNat 64 (word.toNat / 16 % 128) else 0) }
    s.begun false lp 1 2 = some s1 → bit (s1.slip lp).ustate 16 = false →
    (enters → (s1.slip lp).level.toNat ≤ bits e 2 1 →
      let s2 := (s1.clearActive lp).ucClear lp w
      let at1 := s1.ucFetch false (bits e 31 16)
      let at2 := s1.ucFetch false ((at1 + 1) % 65536)
      exec i s = .next (ucRun lp (BitVec.ofNat 64 w.toNat) budget (Micro.enter w false (BitVec.ofNat 4 n) (bits e 31 16)) s2) ∧
      (s1.ucWord at1 = 5 * 2 ^ 44 → s1.ucWord at2 = 0 → s1.ucBad lp at1 = false → s1.ucBad lp at2 = false → 2 ≤ budget →
        bit e 3 = false →
        ∃ t, exec i s = .next t ∧ s2.onlySlip t lp [] ∧
          ∃ d sh, t.slip lp = { (entered (s1.slip lp)).moveOn with dirty := d, shadow := sh })) ∧
    (¬ enters → raises 0x01) ∧ (enters → bits e 2 1 < (s1.slip lp).level.toNat → raises 0x02)) ∧
  (∀ (s : State) (lp : LpId) (m : Micro) (w : BitVec 128), m.upc < 65536 → m.loops.length ≤ 2 →
    (∀ t, m.slot = some t → t < 65535 ∨ t = ucEndMark) →
    (∀ l ∈ m.loops, 1 ≤ l.1 ∧ l.1 ≤ 65536 ∧ l.2.1 < 65536 ∧ l.2.2 < 64) →
    let x := (s.ucRecord lp m).slip lp
    bit x.ustate 16 = true ∧
      x.resumed m.word m.kind w = { Micro.enter m.word m.kind m.entry m.upc with
        slot := m.slot, loops := m.loops, since := if ucIsWait w ∨ ucMem w ≠ 0 then 0 else 63 } ∧
      ((if m.kind then 0xC000 ≤ m.upc else 0x8400 ≤ m.upc ∧ m.upc < 0x8800) → x.resumable m.kind m.entry.toNat = true) ∧
      x.g = (s.slip lp).g ∧ x.f = (s.slip lp).f ∧ x.b = (s.slip lp).b ∧ x.u = (s.slip lp).u ∧ x.pc = (s.slip lp).pc)

/-- R205, R98, R185: in compatibility mode a forerunner instruction issues the words of a forerunner routine, and one that ends at
once retires; words that name no instruction are an illegal operation with those words as IWORD; a WAIT on TIMER whose time has come
lets its routine go on at the next word. (Entry and length of a forerunner instruction as log 41 reads them.) -/
def Obligations.ForerunnerUndefinedAndTimerWaits : Prop :=
  (∀ (lp : LpId) (word : BitVec 32) (budget : Nat) (s s1 : State),
    let i := Instr.forerunnerInstruction lp word budget
    let upc := 0xC000 + Config.forerunnerEntry word % 0x4000
    s.begun true lp 1 2 = some s1 → bit (s1.slip lp).ustate 16 = false →
    exec i s = .next (ucRun lp (BitVec.ofNat 64 word.toNat) budget (Micro.enter word true 0 upc) (s1.clearActive lp)) ∧
    (s1.ucWord upc = 5 * 2 ^ 44 → s1.ucWord ((upc + 1) % 65536) = 0 → s1.ucBad lp upc = false →
      s1.ucBad lp ((upc + 1) % 65536) = false → 2 ≤ budget →
      ∃ t, exec i s = .next t ∧ s1.retiresAs t lp [] (fun x => { x.moveOn with
        ustate := setBits x.ustate 19 16 0, uloop0 := 0, uloop1 := 0 }))) ∧
  (∀ (lp : LpId) (w0 w1 : BitVec 32) (s s1 : State),
    let long := isLong w0
    decodeWords lp w0 w1 = none → s.begun false lp (if long then 2 else 1) 0 = some s1 → bit (s1.slip lp).ustate 16 = false →
      exec (.undefinedInstruction lp w0 w1) s = .next (s1.takeException lp { excOf 0x01 0 0 0 with
        pc := (s1.slip lp).pc
        iword := BitVec.ofNat 64 (w0.toNat + if long then w1.toNat * 2 ^ 32 else 0) })) ∧
  (∀ (lp : LpId) (s : State) (m : Micro),
    let w := s.ucNextWord m
    (s.lpv lp).micro = some m → s.lpReady lp = true → s.boundaryDue lp = false → ucIsWait w = true → ucCond w = 5 → ucMem w = 0 →
      m.slot = none → m.pendU = none → m.pendG = none → s.ucIllegal m w = none → s.ucBad lp (s.ucFetch m.kind m.upc) = false →
      (∀ x, (s.lpv lp).win = some x → sectorCount x.stores + 2 ≤ 128 ∧ x.words < 4096) →
      (s.u lp (ucA w)).toNat ≤ s.live.time.toNat →
      ∃ t m', exec (.waitOnTimer lp) s = .next t ∧ (t.lpv lp).micro = some m' ∧ m'.upc = (m.after ((s.ucFetch m.kind m.upc + 1) % 65536) m.loops).1 ∧
        m'.loops = (m.after ((s.ucFetch m.kind m.upc + 1) % 65536) m.loops).2 ∧ t.live.lps = s.live.lps ∧ t.mem = s.mem ∧ t.live.regs = s.live.regs)

/-- R211, R218, R220 to R222, R236, R232, R233: a window that has its length closes; a compared window that matches releases its
stores; one that differs restores its checkpoint and drops them, and differing again fails the twin; an LP asked to stop closes and
compares its window, performs its stores and stops; a debug halt suspends checking, and its end lets the LP run. R223, R226, R232, R39: the drain of a
failed twin leaves no line in its L2; the spare is ready; once both are done the LP is bound to the spare with its registers as they
were, and the failed twin is retired, or fenced where the reaction is FENCE. (Lane B's difference is an operand, log 9.) -/
def Obligations.WindowsCompareAndTwinsAreSpared : Prop :=
  (∀ (s : State) (lp : LpId),
    let v := s.lpv lp
    let on : Prop := s.mainOn = true ∧ lp.val < s.lpCount ∧ s.atBoundary lp = true
    (∀ w, on → s.pwr.lpsOn = true → v.failed = false → v.sparing = none → v.ask = none → v.closed = none → v.win = some w →
      s.windowLength ≤ w.retired → 0 < w.retired →
      ∃ t, exec (.windowClose lp) s = .next t ∧ (t.lpv lp).win = none ∧ (t.lpv lp).closed = some { w with reason := 0 } ∧
        t.live.lps = s.live.lps ∧ t.mem = s.mem) ∧
    (∀ w, v.closed = some w → v.inject = [] → s.mainOn = true →
      exec (.windowCompare lp 0) s = .next ((s.setLpv lp { v with closed := none, fails := 0 }).release lp w.stores) ∧
      ∀ d, d ≠ 0 → v.freeze = false →
        ∃ t, exec (.windowCompare lp d) s = .next t ∧ t.mem = s.mem ∧ (t.lp lp).run = w.ckpt.run ∧
          (∀ k : Fin 8,
            let x := t.slipN lp k
            let y := w.ckpt.slips.get k
            x.g = y.g ∧ x.f = y.f ∧ x.b = y.b ∧ x.pc = y.pc ∧ x.fpsr = y.fpsr ∧ x.level = y.level ∧ x.ie = y.ie ∧ x.ss = y.ss ∧
              x.ustate = y.ustate ∧ x.uloop0 = y.uloop0 ∧ x.uloop1 = y.uloop1 ∧ x.u = y.u) ∧
          (t.lp lp).part = w.ckpt.part ∧ (t.lp lp).zx = w.ckpt.zx ∧ (t.lpv lp).closed = none ∧ (t.lpv lp).resv = none ∧
          (t.lpv lp).releasing = v.releasing ∧
          (v.fails = 0 → (v.unchecked = false → ∃ c, (t.lpv lp).win = some (Win.fresh c)) ∧ (t.lpv lp).failed = v.failed ∧
            (t.lpv lp).fails = 1 ∧ ∃ x, t.std.reports = s.std.reports ++ [((s.lp lp).twin.val, x)]) ∧
          (v.fails ≠ 0 → (t.lpv lp).win = none ∧ (t.lpv lp).failed = true ∧
            ∃ x, t.std.reports = s.std.reports ++ [(0x40 + (s.lp lp).twin.val, x)])) ∧
    (v.freeze = true → v.frozen = false → on → s.pwr.phase ≠ .landing → v.devLoad = none → v.devStore = none → v.micro = none →
      v.entering = none → v.inject = [] → s.vol.caches.txns = [] → s.vol.caches.grants = [] →
      ∃ t, exec (.lpStop lp) s = .next t ∧ (t.lp lp).st = .stopped ∧ (t.lpv lp).freeze = false ∧ (t.lpv lp).resv = none ∧
        (t.lpv lp).win = none ∧ (t.lpv lp).closed = none ∧ t.slip lp = s.slip lp) ∧
    (on → s.pwr.lpsOn = true → (s.lp lp).st = .running ∨ (s.lp lp).st = .idle → v.halted = false → v.freeze = false →
      v.failed = false → v.sparing = none → v.devLoad = none → v.devStore = none → s.ssAllowed (s.lp lp).run = true →
      v.micro = none → v.inject = [] →
      ∃ t, exec (.debugHalt lp) s = .next t ∧ (t.lpv lp).halted = true ∧ (t.lpv lp).unchecked = true ∧ (t.lpv lp).resv = none ∧
        t.live.unchecked.getLsbD (s.lp lp).twin.val = true ∧ t.slip lp = s.slip lp) ∧
    (v.halted = true → exec (.debugHaltEnd lp) s = .next (s.setLpv lp { v with halted := false }))) ∧
  (∀ (s : State) (lp : LpId) (x : Sparing), (s.lpv lp).sparing = some x →
    (∀ lost, x.drained = false → (s.lpv lp).releasing = [] → s.tidy = true →
      ∃ t ls, exec (.l2DrainDone lp lost) s = .next t ∧ (t.lpv lp).sparing = some { x with drained := true, lost := ls } ∧
        (∀ ln, (t.cline x.failed.val ln).st = .i) ∧ (t.lp lp).slips = (s.lp lp).slips) ∧
    exec (.spareTwinReady lp) s = .next (s.setLpv lp { s.lpv lp with sparing := some { x with ready := true } }) ∧
    (∀ y, s.mainOn = true → x.drained = true → x.ready = true → x.spare = some y →
      ∃ t, exec (.stateTransferDone lp) s = .next t ∧ (t.lp lp) = { s.lp lp with twin := y, ckptDue := (s.lp lp).ckptDue ||| (s.lpv lp).badCkpt } ∧ (t.lpv lp).sparing = none ∧
        (t.lpv lp).failed = false ∧ bit (t.evt 130) 1 = true ∧ t.mem = s.mem ∧
        (x.fence = false → t.nv.cfg.retired.getLsbD x.failed.val = true) ∧
        (x.fence = true → (UnitKind.twin, x.failed.val, x.cls) ∈ t.std.fenced ∧ t.nv.cfg = s.nv.cfg)))

/-! ## Coherence -/

/-- R255, R259, R261, R262: a request for a line homed here that may open (its line has no open transaction, and the manifest entry it
needs a way, R265) opens one, which waits for every other agent of the module that holds the line; an Upg whose requester has lost its
copy becomes an RdO (R258, R271); another module's request that holds the line has its manifest bit from then on (R264). One that may
not open waits in the home's queue, or is answered RETRY with a ticket where the queue is full and then comes again; the oldest ticket
lapses. R255, R258, R259, R262, R268: a transaction with no response awaited closes; a read's data then go to its requester, a write's
bytes and a dirty answer to memory, and the requester takes the state granted; then what waited goes on, which where nothing waits is
nothing. (Agents without a copy count as having answered MISS: the model's choice, log 32; the home's order is log 33.) -/
def Obligations.HomeTransactionsOpenAndClose : Prop :=
  (∀ (s : State) (req : BitVec 10) (line : BitVec 44) (off : BitVec 8) (data : List Byte) (r : LineRef),
    let ask (i : Instr) (k : ReqKind) (o : Nat) (d : List Byte) : Prop :=
      let q : Req := ⟨k, req.toNat, line.toNat, o, d⟩
      s.ownLine line.toNat = some r → s.mainOn = true → req.toNat % 128 < 107 → s.inDeck (req.toNat / 128) = true →
        (k.holds = true → req.toNat % 128 < 80) →
      let here : Prop := req.toNat / 128 = s.pwr.modid.val
      let lost : Prop := (here ∧ (s.cline (req.toNat % 128) line.toNat).st = .i) ∨
        (¬ here ∧ (s.man line.toNat r.port).holders.getLsbD (req.toNat / 128) = false)
      (s.mayOpen r q = true →
        ∃ t x, exec i s = .next t ∧ t.txnOf line.toNat = some x ∧
          (¬ (k = .upg ∧ lost) → x.req = q) ∧ (k = .upg → lost → x.req = { q with kind := .rdo }) ∧
          (∀ a, a < 128 → (a ∈ x.wait ↔ (∃ c, (a, c) ∈ s.holders line.toNat) ∧ req.toNat ≠ 128 * s.pwr.modid.val + a)) ∧
          t.live.lps = s.live.lps ∧ (here ∨ k.holds = false → t.mem = s.mem ∧ t.live = s.live) ∧
          (¬ here → k.holds = true → (t.man line.toNat r.port).holders.getLsbD (req.toNat / 128) = true)) ∧
      (s.mayOpen r q = false → (s.home r.port).tickets = [] → (s.home r.port).queue.length < 16 →
        ∃ t, exec i s = .next t ∧ (t.home r.port).queue = (s.home r.port).queue ++ [q] ∧ t.mem = s.mem ∧ t.live = s.live) ∧
      (s.mayOpen r q = false → (s.home r.port).tickets = [] → 16 ≤ (s.home r.port).queue.length →
        ∃ t, exec i s = .next t ∧ (t.home r.port).tickets = [(req.toNat, line.toNat)] ∧
          t.vol.caches.grants = s.vol.caches.grants ++ [⟨q, .i, true, false, none⟩] ∧ t.mem = s.mem ∧ t.live = s.live)
    ask (.rds req line) .rds 0 [] ∧ ask (.rdo req line) .rdo 0 [] ∧ ask (.upg req line) .upg 0 [] ∧
    ask (.rdoz req line) .rdoz 0 [] ∧ ask (.rdcur req line) .rdcur 0 [] ∧ ask (.clean req line) .clean 0 [] ∧
    ask (.inv req line) .inv 0 [] ∧
    (data.length = 256 → ask (.wrinvf req line data) .wrinvf 0 data) ∧
    (0 < data.length → off.toNat + data.length ≤ 256 → data.length < 256 →
      ask (.wrinvp req line off data) .wrinvp off.toNat data) ∧
    (∀ g, s.grantFor req.toNat line.toNat true = some g →
      exec (.requestResend req line) s = .next ((s.dropGrant g).request g.req)) ∧
    (∀ p : Fin 16, s.tidy = true → (s.home p.val).tickets ≠ [] → ∃ t, exec (.ticketExpiry p) s = .next t ∧
      (t.home p.val).tickets = (s.home p.val).tickets.tail ∧ (t.home p.val).queue = (s.home p.val).queue ∧ t.mem = s.mem)) ∧
  (∀ (s : State) (req : BitVec 10) (line : BitVec 44) (x : Txn) (r : LineRef),
    let ln := line.toNat
    let done (k : ReqKind) : Prop := s.tidy = true ∧ s.ownLine ln = some r ∧ s.txnOf ln = some x ∧ x.req.line = ln ∧
      x.req.req = req.toNat ∧ req.toNat / 128 = s.pwr.modid.val ∧ x.wait = [] ∧ x.wbp = [] ∧ x.req.kind = k
    let closes (f : State → Prop) : Prop :=
      ∃ t u : State, exec (.homeCompletion req line) s = .next u ∧ u = (t.openQueued r.port).wakeWaiters ∧ t.txnOf ln = none ∧ f t ∧
        ((s.home r.port).poisons = [] → (s.home r.port).queue = [] →
          (∀ lp, (s.lpv lp).releasing = [] ∧ (s.lpv lp).entering = none) → u = t)
    let granted (st : CSt) : State → Prop := fun t =>
      t.vol.caches.grants = s.vol.caches.grants ++
        [⟨x.req, st, false, true, if x.dirty ∧ st = .m then some (x.scratch, x.epoch) else none⟩] ∧ t.mem.cur = s.mem.cur
    (done .rds → x.supplied = true → closes (granted (if x.hit then .s else .e))) ∧
    (done .rdo → x.supplied = true → closes (granted .m)) ∧
    (done .rdcur → x.supplied = true → closes (granted .i)) ∧
    (done .rds → x.supplied = false → s.portState r.port = 2 → closes (granted (if x.hit then .s else .e))) ∧
    (done .rds → x.supplied = false → s.portState r.port ≠ 2 → closes (fun t => t.vol.caches.grants = s.vol.caches.grants)) ∧
    (done .upg → req.toNat % 128 < 80 → closes (fun t => (t.cline (req.toNat % 128) ln).st = .m)) ∧
    (done .rdoz → req.toNat % 128 < 80 →
      closes (fun t => (t.cline (req.toNat % 128) ln).st = .m)) ∧
    (done .wrinvf → x.req.data.length = 256 → s.portState r.port = 2 → closes (fun t =>
      t.lineBytes r.key = x.req.data ∧ t.mem.media.bytes (r.key * 256) 256 = x.req.data ∧ t.linePoison r = false)) ∧
    (done .wrinvp → x.supplied = true → x.req.off + x.req.data.length ≤ 256 → s.portState r.port = 2 → closes (fun t =>
      t.mem.cur.bytes (r.key * 256 + x.req.off) x.req.data.length = x.req.data ∧
      t.mem.media.bytes (r.key * 256) 256 = t.lineBytes r.key ∧
      ∀ a, a < r.key * 256 + x.req.off ∨ r.key * 256 + x.req.off + x.req.data.length ≤ a → t.mem.cur.byte a = s.mem.cur.byte a)) ∧
    (done .clean ∨ done .inv → x.dirty = true → s.portState r.port = 2 → closes (fun t =>
      t.mem.media.bytes (r.key * 256) 256 = s.lineBytes r.key ∧ t.mem.cur = s.mem.cur)) ∧
    (∀ g, s.vol.caches.dir.sorted = true → s.grantFor req.toNat ln false = some g → req.toNat / 128 = s.pwr.modid.val →
      req.toNat % 128 < 80 → g.st ≠ .i →
      ∃ t u : State, exec (.dat req line) s = .next u ∧ u = t.wakeWaiters ∧ (t.cline (req.toNat % 128) ln).st = g.st ∧
        (t.cline (req.toNat % 128) ln).valid = 15 ∧ t.vol.caches.grants = s.vol.caches.grants.erase g))

/-- R256, R262, R264, R267: an agent snooped for an open transaction takes the state and sends the response of the table, HIT in
place of data for an RdOZ; its response, or another module's, is then no longer awaited; a mooring that ends lets go of its line.
(Whom a transaction awaits is the model's choice, log 32.) -/
def Obligations.SnoopsAnswerByTheTable : Prop :=
  ∀ (s : State) (agent : Fin 128) (line : BitVec 44) (x : Txn) (r : LineRef),
    let ln := line.toNat
    let c := s.cline agent.val ln
    let snoop (i : Instr) (k : Snoop) : Prop :=
      s.ownLine ln = some r → s.mainOn = true → agent.val < 80 → s.txnOf ln = some x → x.req.kind.snoop = k →
        agent.val ∈ x.wait → s.vol.caches.heldSnoops.any (fun e => decide (e.1 = agent.val ∧ e.2.1 = ln)) = false →
        s.vol.caches.resps.any (fun e => decide (e.1 = agent.val ∧ e.2.1 = ln)) = false → c.moored = false → c.wbk = false →
      let answer : CSt × Resp :=
        match c.st with
        | .i => (.i, .miss)
        | .s => (if k = .shared ∨ k = .cur ∨ k = .clean then .s else .i, .hit)
        | .e => if k = .shared then (.s, .dataClean) else if k = .own then (.i, .dataClean) else if k = .cur then (.e, .dataClean)
          else if k = .clean then (.e, .hit) else (.i, .hit)
        | .o => if k = .shared ∨ k = .cur then (.o, .dataDirty) else if k = .clean then (.s, .dataDirty)
          else if k = .invf then (.i, .hit) else (.i, .dataDirty)
        | .m => if k = .shared then (.o, .dataDirty) else if k = .cur then (.m, .dataDirty)
          else if k = .clean then (.e, .dataDirty) else if k = .invf then (.i, .hit) else (.i, .dataDirty)
      let resp := if x.req.kind = .rdoz ∧ answer.2 ≠ .miss then .hit else answer.2
      ∃ t, exec i s = .next t ∧ (t.cline agent.val ln).st = answer.1 ∧
        t.vol.caches.resps = s.vol.caches.resps ++ [(agent.val, ln, resp)] ∧ t.mem = s.mem ∧ t.live.lps = s.live.lps ∧
        ∀ a l, a < 128 → (a, l) ≠ (agent.val, ln) → t.cline a l = s.cline a l
    s.vol.caches.dir.sorted = true →
    snoop (.snpshared agent line) .shared ∧ snoop (.snpown agent line) .own ∧ snoop (.snpcur agent line) .cur ∧
    snoop (.snpinv agent line) .inv ∧ snoop (.snpinvf agent line) .invf ∧ snoop (.snpclean agent line) .clean ∧
    (∀ (who : BitVec 10) (y z : Resp) (d : List Byte), s.ownLine ln = some r → s.txnOf ln = some x →
      who.toNat / 128 = s.pwr.modid.val →
      s.vol.caches.resps.find? (fun e => decide (e.1 = who.toNat % 128 ∧ e.2.1 = ln)) = some (who.toNat % 128, ln, y) →
      ∃ t u, exec (.snoopResponse who line z d) s = .next t ∧ t.txnOf ln = some u ∧ u.req = x.req ∧
        u.wait = x.wait.filter (fun w => decide (w ≠ who.toNat % 128)) ∧
        (u.supplied = true ↔ x.supplied = true ∨ y = .dataClean ∨ y = .dataDirty ∨ y = .wbPending) ∧
        (u.hit = true ↔ x.hit = true ∨ y = .hit ∨ y = .dataClean ∨ y = .dataDirty) ∧ t.mem = s.mem) ∧
    (∀ (who : BitVec 10) (y : Resp) (d : List Byte), s.ownLine ln = some r → s.txnOf ln = some x →
      who.toNat / 128 ≠ s.pwr.modid.val → 1024 + who.toNat / 128 ∈ x.wait → y = .miss ∨ y = .hit →
      ∃ t u, exec (.snoopResponse who line y d) s = .next t ∧ t.txnOf ln = some u ∧ u.req = x.req ∧
        u.wait = x.wait.filter (fun w => decide (w ≠ 1024 + who.toNat / 128)) ∧ u.supplied = x.supplied ∧ t.mem = s.mem) ∧
    (c.moored = true → s.vol.caches.heldSnoops.any (fun e => decide (e.1 = agent.val ∧ e.2.1 = ln)) = false →
      ∃ t, exec (.mooringEnd agent line) s = .next t ∧ (t.cline agent.val ln).moored = false ∧
        (t.cline agent.val ln).st = c.st ∧ t.mem = s.mem ∧ t.live = s.live)

/-- R257, R266, R270: the writeback of a cache's dirty line leaves the cache and reaches memory, and its acknowledgement ends it;
another module's is taken with its data and poison; a set of the manifest in error is reported and taken as full until it is
rebuilt. R242, R246 to R249: a write of a cache's register by host or keel sets its enables, which stay 0 in harbour mode, and its
LOCK_WAYS, 4 where 5 to 7 is written, drops the tags of the ways that leave and empties the ways that come of ordinary lines (R244);
a cache not enabled writes its dirty lines back and is clean. -/
def Obligations.WritebacksManifestAndCacheRegisters : Prop :=
  (∀ (s : State) (req : BitVec 10) (agent : Fin 128) (line : BitVec 44) (data : List Byte) (poison : Bool) (r : LineRef)
    (port : Fin 16) (set : BitVec 17), s.tidy = true →
    let ln := line.toNat
    let a := req.toNat % 128
    (s.ownLine ln = some r → s.mainOn = true → req.toNat / 128 = s.pwr.modid.val → (s.cline a ln).st.dirty = true →
      (s.cline a ln).wbk = false → a < 80 → (a < 64 → s.cacheOn (64 + a / 4) = false) → s.portState r.port = 2 →
      ∃ t, exec (.wbk req line data poison) s = .next t ∧ (t.cline a ln).st = .i ∧ (t.cline a ln).wbk = true ∧
        t.mem.media.bytes (r.key * 256) 256 = s.lineBytes r.key ∧ t.mem.cur = s.mem.cur ∧ t.mem.poison = s.mem.poison ∧
        t.mem.mpoison.get r.key false = s.linePoison r) ∧
    (s.ownLine ln = some r → s.mainOn = true → req.toNat / 128 ≠ s.pwr.modid.val → s.inDeck (req.toNat / 128) = true →
      data.length = 256 → s.portState r.port = 2 → s.txnOf ln = none →
      ∃ t, exec (.wbk req line data poison) s = .next t ∧ t.lineBytes r.key = data ∧
        t.mem.media.bytes (r.key * 256) 256 = data ∧ t.linePoison r = poison ∧
        (∀ k, k / 256 ≠ r.key → t.mem.cur.byte k = s.mem.cur.byte k) ∧ t.live.lps = s.live.lps) ∧
    ((s.cline agent.val ln).wbk = true → ∃ t, exec (.wbkAck agent line) s = .next t ∧ (t.cline agent.val ln).wbk = false ∧
      (t.cline agent.val ln).st = (s.cline agent.val ln).st ∧ t.mem = s.mem) ∧
    (s.mainOn = true → s.vol.caches.manBad.contains (port.val, set.toNat) = false →
      ∃ t d, exec (.manifestError port set) s = .next t ∧ t.vol.caches.manBad.contains (port.val, set.toNat) = true ∧
        t.std.reports = s.std.reports ++ [(0x150 + port.val, d)] ∧ t.mem = s.mem ∧ t.live = s.live) ∧
    (s.vol.caches.manBad.contains (port.val, set.toNat) = true →
      ∃ t, exec (.manifestRebuildDone port set) s = .next t ∧ t.vol.caches.manBad.contains (port.val, set.toNat) = false ∧
        bit (t.reg (offCoh + 0x500 + 8 * port.val)) 48 = true ∧
        (∀ e ∈ t.vol.caches.manifest, manSet e.1 = set.toNat → ∀ q, s.lineRef e.1 = some q → q.port ≠ port.val) ∧ t.mem = s.mem)) ∧
  (∀ (s : State) (src : Src) (n : Fin 64) (k : Fin 16) (agent : Fin 128) (v : Word), s.tidy = true →
    let write (i : Instr) (off a en : Nat) : Prop := s.srcMay src 1 = true →
      let low := 16 - min 4 (bits v 6 4)
      ∃ t, exec i s = .next t ∧
        bits (t.reg off) 6 4 = min 4 (bits v 6 4) ∧
        t.reg off &&& BitVec.ofNat 64 en = (if s.harbour then s.reg off else v) &&& BitVec.ofNat 64 en ∧
        (∀ e, e ∈ t.live.lockTags ↔ e ∈ s.live.lockTags ∧ ¬ (e.1 = a ∧ e.2.2 < low)) ∧
        (∀ ln, (t.cline a ln).st ≠ .i → low ≤ (t.cline a ln).way → t.locked a ln = true) ∧
        t.live.lps = s.live.lps ∧ t.mem.cur = s.mem.cur ∧
        ((∀ ln, (s.cline a ln).st ≠ .i → low ≤ (s.cline a ln).way → ∃ w, (a, ln, w) ∈ s.live.lockTags ∧ low ≤ w) →
          (∀ o, o ≠ off → t.reg o = s.reg o) ∧ t.mem = s.mem ∧ t.vol = s.vol)
    let l2 : Nat := 0x100100 + 8 * n.val
    let l3 : Nat := 0x100400 + 8 * k.val
    write (.cacheEnableWrite src (BitVec.ofNat 32 l2) v) l2 n.val 7 ∧ write (.lockWaysWrite src (BitVec.ofNat 32 l2) v) l2 n.val 7 ∧
    write (.cacheEnableWrite src (BitVec.ofNat 32 l3) v) l3 (64 + k.val) 1 ∧
    write (.lockWaysWrite src (BitVec.ofNat 32 l3) v) l3 (64 + k.val) 1 ∧
    (s.mainOn = true → agent.val < 80 → s.cacheOn agent.val = false →
      ∃ t, exec (.cacheDrained agent) s = .next t ∧ (∀ ln, (t.cline agent.val ln).st.dirty = false) ∧ t.mem.cur = s.mem.cur ∧
        t.live.lps = s.live.lps))

/-! ## Memory and ports -/

/-- R108, R144, R213, R287, R298 to R301: the data of a device load go to its register and its instruction ends; a store's
completion ends its instruction; a posted store's completion, or its timeout, takes it off the list, and its error is recorded
against the LP; an access that times out raises a precise bus error. At one PCIe root port the answers come in order: one that would
overtake an earlier posted store to the port does not come yet. -/
def Obligations.DeviceAnswersEndTheirAccess : Prop :=
  ∀ (s : State) (lp : LpId), s.devAlive lp = true →
    let v := s.lpv lp
    let rest (t : State) : Prop := t.mem = s.mem ∧ t.live.regs = s.live.regs ∧ ∀ m : LpId, m ≠ lp → t.lp m = s.lp m ∧ t.lpv m = s.lpv m
    (∀ (d : DevAcc) (x : Word) (r : Reg), v.devLoad = some d → d.pair = false → portBehind v.posted d.addr = false → d.size ∈ [1, 2, 4, 8] →
      (d.dst = r.val → ∃ t e h, exec (.deviceLoadData lp x false) s = .next t ∧ (t.lpv lp).devLoad = none ∧ rest t ∧
        t.slip lp = { (s.slip lp).result r (BitVec.ofNat 64 (x.toNat % 2 ^ (8 * d.size))) d.len with dirty := e, shadow := h }) ∧
      (d.dst = 32 + r.val → ∃ t e h, exec (.deviceLoadData lp x false) s = .next t ∧ (t.lpv lp).devLoad = none ∧ rest t ∧
        t.slip lp = { (s.slip lp).resultF r (BitVec.ofNat 64 (x.toNat % 2 ^ (8 * d.size))) d.len with dirty := e, shadow := h })) ∧
    (∀ d (x : Word) (e : Bool), portBehind v.posted d.addr = true →
      (v.devLoad = some d → exec (.deviceLoadData lp x e) s = .next s) ∧
      (v.devStore = some d → exec (.deviceStoreCompletion lp none e) s = .next s)) ∧
    (∀ d, v.devStore = some d → d.pair = false → portBehind v.posted d.addr = false →
      ∃ t e h, exec (.deviceStoreCompletion lp none false) s = .next t ∧ (t.lpv lp).devStore = none ∧ rest t ∧
        t.slip lp = { (s.slip lp).moveOn d.len with dirty := e, shadow := h }) ∧
    (∀ k d, v.posted[k]? = some d → portBehind (v.posted.take k) d.addr = false →
      exec (.deviceStoreCompletion lp (some k) false) s = .next (s.setLpv lp { v with posted := v.posted.eraseIdx k }) ∧
      ∃ t, exec (.deviceStoreCompletion lp (some k) true) s = .next t ∧ (t.lpv lp).posted = v.posted.eraseIdx k ∧ rest t ∧
        t.slip lp = s.slip lp ∧ ∃ e ∈ (t.lp lp).deferred, e.level = (if d.level.toNat = 3 then 2 else d.level)) ∧
    (∀ d l, v.posted = d :: l →
      ∃ t x, exec (.postedStoreTimeout lp) s = .next t ∧ (t.lpv lp).posted = l ∧ rest t ∧ t.slip lp = s.slip lp ∧
        t.std.reports = s.std.reports ++ [(0x216, x)] ∧
        ∃ e ∈ (t.lp lp).deferred, e.level = (if d.level.toNat = 3 then 2 else d.level)) ∧
    (∀ d, v.devLoad = some d ∨ (v.devLoad = none ∧ v.devStore = some d) →
      exec (.deviceAccessTimeout lp) s = .next ((s.setLpv lp { v with devLoad := none, devStore := none }).takeException lp
        { excOf 0x06 0 (BitVec.ofNat 64 d.addr) d.finfo with pc := (s.slip lp).pc, iword := d.iword }))

/-- R320, R340, R346, R354, R664: a training port admits an expander that passes every test, and records it; otherwise, or where its
training takes too long, it is refused with the first failing test; the failures of an admitted port are reported to the class that
takes them. R275 to R277, R285, R286, R387: a causeway link whose peer passes every stage comes up, its modules join the deck and
the timebase takes the larger value; one that fails is refused with the first failing stage, or a timeout; a link that goes down
leaves the deck. The deck is always this module and those the links that are up reach, which follows a link's news of the deck beyond
it. Each failure is reported. (The order of a link's stages is the model's reading, log 25; an unrecorded port, log 34; that a
CAUSEWAY_LINK_TRAINED on a link that is up brings such news, log 55.) -/
def Obligations.PortsAndCausewayLinksTrain : Prop :=
  (∀ (s : State) (port : Fin 16) (e : Expander) (fatal : Bool), s.tidy = true →
    let p := port.val
    let o := 0x200000 + p * 0x10000
    let cap := min e.capacity (2 ^ 40) / 2 ^ 26 * 2 ^ 26
    let code : Nat :=
      if ¬ ((e.speed = 64 ∨ e.speed = 32) ∧ (e.lanes = 8 ∨ e.lanes = 4)) then 6
      else if e.kindOk = false then 1 else if e.poisonOk = false then 4
      else if e.identOk = false ∨ e.capacity = 0 then 2 else if e.gpfOk = false then 3
      else if (s.pwr.resume = true ∨ s.nv.parks.get p [] ≠ []) ∧ s.nv.cfg.ports.get p none ≠ some (e.serial, cap) then 5
      else 0
    let reports (i : Instr) (src : Nat) (event : Option Nat) : Prop :=
      ∃ t d, exec i s = .next t ∧ t.std.reports = s.std.reports ++ [(src + p, d)] ∧ t.mem = s.mem ∧ t.live.lps = s.live.lps ∧
        match event with
        | some b => bit (t.reg (o + 0x28)) b = true ∧ ∀ a, a ≠ o + 0x28 → t.reg a = s.reg a
        | none => t.live.regs = s.live.regs
    (s.pwr.phase = .training → s.portState p = 1 →
      (code = 0 → ∃ t, exec (.pmLinkTrained port e) s = .next t ∧ t.portState p = 2 ∧
        t.nv.cfg.ports.get p none = some (e.serial, cap) ∧ t.nv.cfg.dsc.get p none = some e.dsc ∧ t.reg (o + 0x18) = e.serial ∧
        t.regF (o + 0x40) 16 0 = 0 ∧ bit (t.reg 0x10) p = true) ∧
      (code ≠ 0 → ∃ t, exec (.pmLinkTrained port e) s = .next t ∧ t.portState p = 4 ∧ t.regF o 6 4 = code ∧ t.mem = s.mem ∧
        t.nv = s.nv ∧ ∀ a, a ≠ o → t.reg a = s.reg a) ∧
      ∃ t, exec (.pmTrainTimeout port) s = .next t ∧ t.portState p = 4 ∧ t.regF o 6 4 = 7 ∧ t.mem = s.mem ∧ t.nv = s.nv ∧
        ∀ a, a ≠ o → t.reg a = s.reg a) ∧
    (s.mainOn = true → s.portState p = 2 ∨ s.portState p = 3 → reports (.pmLinkDown port) 0x160 none) ∧
    (s.mainOn = true → s.portState p = 2 →
      reports (.pmRequestTimeout port) 0x170 none ∧
      reports (.mediaEventRecord port fatal) (if fatal then 0x1A0 else 0x190) (some 5))) ∧
  (∀ (s : State) (link : Fin 4) (p : CwyPeer), s.tidy = true →
    let l := link.val
    let o := 0xE00000 + 8 * l
    let code : Nat :=
      if ¬ (p.lanes = 0xFFFF ∨ p.lanes &&& 0xFF = 0xFF ∨ p.lanes &&& 0xFF00 = 0xFF00) then 6
      else if ¬ (0x21 ∈ p.versions ∨ 0x20 ∈ p.versions) then 4
      else if p.stepping ≠ s.pwr.stepping then 1 else if ¬ (p.part = 3 ↔ s.pwr.part = 3) then 2
      else if p.modid.toNat = s.pwr.modid.val then 3 else 0
    let refused (i : Instr) (n : Nat) : Prop :=
      ∃ t d, exec i s = .next t ∧ t.regF o 2 0 = 4 ∧ t.regF o 26 24 = n ∧ t.std.reports = s.std.reports ++ [(0x1C4 + l, d)] ∧
        t.mem = s.mem ∧ ∀ a, a ≠ o → t.reg a = s.reg a
    let mask := 2 ^ p.modid.toNat ||| p.beyond.toNat
    let deck (t : State) : Prop := (∀ m, m < 8 → (t.inDeck m = true ↔ m = t.pwr.modid.val ∨
        ∃ k, k < 4 ∧ t.regF (0xE00000 + 8 * k) 2 0 = 2 ∧ ((t.vol.peers.get k (0, false)).1).testBit m = true)) ∧
      ((∀ lp, (s.lpv lp).releasing = [] ∧ (s.lpv lp).entering = none) → t.live.lps = s.live.lps)
    (s.mainOn = true → s.regF o 2 0 = 1 →
      (code = 0 → ∃ t, exec (.causewayLinkTrained link p) s = .next t ∧ t.regF o 2 0 = 2 ∧ t.regF o 6 4 = p.modid.toNat ∧
        t.regF o 23 16 = (if 0x21 ∈ p.versions then 0x21 else 0x20) ∧ t.inDeck p.modid.toNat = true ∧
        t.live.time = (if s.live.time < p.timebase then p.timebase else s.live.time) ∧
        t.vol.peers = s.vol.peers.put l (mask, p.ring) (0, false) ∧ deck t) ∧
      (code ≠ 0 → refused (.causewayLinkTrained link p) code) ∧ refused (.causewayTrainTimeout link) 5) ∧
    (s.mainOn = true → s.regF o 2 0 = 2 → s.regF o 6 4 = p.modid.toNat →
      ∃ t, exec (.causewayLinkTrained link p) s = .next t ∧ t.regF o 2 0 = 2 ∧
        t.vol.peers = s.vol.peers.put l (mask, p.ring) (0, false) ∧ deck t) ∧
    (s.mainOn = true ∨ s.pwr.phase = .landing → s.regF o 2 0 = 2 →
      ∃ t d, exec (.causewayLinkDown link) s = .next t ∧ t.regF o 2 0 = 0 ∧
        t.vol.peers = s.vol.peers.put l (0, false) (0, false) ∧ t.std.reports.getLast? = some (0x1C4 + l, d) ∧ deck t))

/-- R331 to R339, R356, R329: a line an expander returns with the check of its data and address is taken, one with another check is
poisoned and its check inverted; a check line's acknowledgement empties its entries of the check cache; PM_POISON poisons its line
and takes every copy, once the line has no open transaction (R259); an epoch of the sweeper cleans the durable lines that are old; the scrub goes on to the next line. (When
returned data replace the coherent value: log 34.) -/
def Obligations.TileChecksGuardMemory : Prop :=
  ∀ (s : State) (port : Fin 16) (dev : BitVec 32) (data : List Byte) (w : BitVec 32) (src : Src) (line : BitVec 44),
    s.tidy = true → s.mainOn = true → s.portState port.val = 2 →
    let p := port.val
    let r : LineRef := ⟨p * 2 ^ 32 + dev.toNat, true, p, dev.toNat * 256⟩
    let ln := absLine s.live.sets s.pwr.modid.val p (dev.toNat * 256)
    let c := dataEnd (s.recordedCap p)
    let t0 := tileCheck (dev.toNat * 256) data
    (dev.toNat * 256 < c → c ≤ s.recordedCap p → s.holders ln = [] → s.man ln p = Man.none → data.length = 256 →
      s.mem.mpoison.get r.key false = false →
      (w = t0 → ∃ t, exec (.memoryReadData port dev (some data) (some w) false) s = .next t ∧ t.lineBytes r.key = data ∧
        t.mem.media.bytes (r.key * 256) 256 = data ∧ t.mem.poison = s.mem.poison ∧ t.std.reports = s.std.reports ∧
        t.live.lps = s.live.lps) ∧
      (w ≠ t0 → w ≠ ~~~ t0 → ∃ t d, exec (.memoryReadData port dev (some data) (some w) false) s = .next t ∧ t.linePoison r = true ∧
        t.mem.checks.get r.key none = some (~~~ t0) ∧ t.mem.media.bytes (r.key * 256) 256 = data ∧
        bit (t.reg (0x200028 + p * 0x10000)) 0 = true ∧ bits (t.reg (0x200030 + p * 0x10000)) 54 52 = 1 ∧
        t.std.reports = s.std.reports ++ [(0x180 + p, d)])) ∧
    (c ≤ dev.toNat * 256 → dev.toNat * 256 < s.recordedCap p →
      ∃ t, exec (.memoryWriteCmp port dev) s = .next t ∧
        (∀ e, e ∈ t.mem.ckOld ↔ e ∈ s.mem.ckOld ∧
          ¬ (p * 2 ^ 32 + (dev.toNat * 256 - c) / 256 * 64 ≤ e.1 ∧ e.1 < p * 2 ^ 32 + (dev.toNat * 256 - c) / 256 * 64 + 64)) ∧
        t.mem.cur = s.mem.cur ∧ t.mem.media = s.mem.media ∧ t.mem.checks = s.mem.checks ∧ t.live = s.live) ∧
    (∀ q : LineRef, s.srcMay src 1 = true → s.ownLine line.toNat = some q → q.port = p →
      (s.txnOf line.toNat ≠ none → ∃ t, exec (.pmPoison src port (BitVec.ofNat 64 (line.toNat * 256))) s = .next t ∧
        (t.home p).poisons = (s.home p).poisons ++ [line.toNat] ∧ t.mem = s.mem ∧ t.live = s.live) ∧
      (s.txnOf line.toNat = none → ∃ t, exec (.pmPoison src port (BitVec.ofNat 64 (line.toNat * 256))) s = .next t ∧ t.linePoison q = true ∧
        t.mem.mpoison.get q.key false = true ∧ (∀ a, a < 128 → (t.cline a line.toNat).st = .i) ∧ t.live.lps = s.live.lps)) ∧
    (∃ t, exec .sweeperEpoch s = .next t ∧ t.vol.caches.epoch = s.vol.caches.epoch + 1 ∧ t.mem.cur = s.mem.cur ∧
      t.live.lps = s.live.lps ∧
      ∀ a l, a < 128 → (s.lineRef l).isSome = true → (s.cline a l).st.dirty = true → (s.cline a l).scratch = false →
        ((t.cline a l).st.dirty = true ↔ s.vol.caches.epoch + 1 < (s.cline a l).epoch + 3)) ∧
    (bit (s.reg (0x200008 + p * 0x10000)) 0 = true → 0 < c / 256 →
      let d := s.vol.scrub.get p 0 % (c / 256)
      ∃ t, exec (.scrubLine port) s = .next t ∧ (d + 1 < c / 256 → t.vol.scrub.get p 0 = d + 1) ∧
        (d + 1 = c / 256 → bit (t.reg (0x200028 + p * 0x10000)) 6 = true) ∧ t.live.lps = s.live.lps)

/-! ## Landings, starts and pins -/

/-- R361, R362, R364, R365, R366, R377, R378, R547: a trigger in RUN begins a landing: POWER_STATE reads LANDING, the slot is OPEN
with the next sequence number, the debug level closes and every LP is frozen with its registers as they are; a trigger in a landing
adds its cause; PWRFAIL_N rising stops nothing; once outputs are quiesced no posted store is left. -/
def Obligations.TriggersBeginALanding : Prop :=
  ∀ (s : State) (src : Src),
    let b := decide (s.nv.resumed = some false)
    let lands (i : Instr) (cause : Nat) : Prop :=
      (s.pwr.phase = .running → ∃ t, exec i s = .next t ∧ t.pwr.phase = .landing ∧ t.powerState = 1 ∧ t.debug = 0 ∧
        t.pwr.land.cause = BitVec.ofNat 3 cause ∧ t.pwr.land.tbTrigger = s.live.time ∧ (t.nv.slotOf b).st = .opened ∧
        (t.nv.slotOf b).seq = s.nv.cfg.seq + 1 ∧ t.nv.slotOf (!b) = s.nv.slotOf (!b) ∧
        ∀ n : LpId, (t.lp n).slips = (s.lp n).slips ∧ (n.val < s.lpCount → (t.lpv n).freeze = true ∧ (t.lpv n).halted = false)) ∧
      (s.pwr.phase = .landing → ∃ t, exec i s = .next t ∧ t.pwr = { s.pwr with land := { s.pwr.land with
        cause := s.pwr.land.cause ||| BitVec.ofNat 3 cause } } ∧ t.live = s.live ∧ t.vol = s.vol ∧ t.mem = s.mem ∧ t.nv = s.nv)
    (s.std.standby = true → lands .pwrfailLow 1) ∧ (s.srcKeel src = true → lands (.landRequest src) 4) ∧
    (s.islandsOn = true → s.std.thermtrip = false → s.tidy = true → s.pwr.phase = .running →
      ∃ t, exec .thermtrip s = .next t ∧ t.pwr.phase = .landing ∧ t.pwr.land.cause = 2 ∧ t.std.faultHold = true ∧
        t.std.thermtrip = true ∧ t.powerState = 1) ∧
    exec .pwrfailRise s = .next { s with std := { s.std with pwrfail := false } } ∧
    (s.pwr.phase = .landing → s.pwr.land.quiesced = false →
      ∃ t, exec .outputsQuiesced s = .next t ∧ t.pwr.land.quiesced = true ∧ t.pwr.phase = .landing ∧
        ∀ n : LpId, n.val < s.lpCount → (t.lpv n).posted = [] ∧ (t.lp n).slips = (s.lp n).slips)

/-- R364, R367 to R369: a module that lands elsewhere takes its lines from every cache here; the recall closes when every member has
answered, or in time, and frees the manifest; a module that has left holds no line; the lines go home or become strays, and after
that no cache and no held write is left. R364, R370, R374, R376, R378: the GPF phases of a port follow one another and its Dirty
Shutdown Count is kept; a stack that has acknowledged is no longer awaited; a complete landing whose stacks have acknowledged is
sealed with every LP's registers, and memory holds what the expanders hold; one whose stack failed ends unsealed in HOLD. (What an
acknowledgement gates: log 35.) -/
def Obligations.LandingsEmptyTheCachesAndSeal : Prop :=
  (∀ (s : State) (m : Fin 8) (line : BitVec 44), s.tidy = true →
    let l := s.pwr.land
    let bit : BitVec 8 := BitVec.ofNat 8 (2 ^ m.val)
    let up : Prop := s.mainOn = true ∨ s.pwr.phase = .landing
    (up → m ≠ s.pwr.modid → ∃ t, exec (.recall m) s = .next t ∧
      (∀ a ln, a < 128 → ln / 2 ^ 36 = m.val → (t.cline a ln).st = .i) ∧
      (∀ a ln, a < 128 → ln / 2 ^ 36 ≠ m.val → t.cline a ln = s.cline a ln) ∧ t.mem = s.mem ∧ t.live.lps = s.live.lps ∧
      t.live.regs = s.live.regs) ∧
    (s.pwr.phase = .landing → l.recallClosed = false → l.members &&& bit ≠ 0 →
      ∃ t, exec (.recallDone m) s = .next t ∧ t.pwr.land.answered = l.answered ||| bit ∧
        (l.answered ||| bit = l.members ↔ t.pwr.land.recallClosed = true)) ∧
    (s.pwr.phase = .landing → l.recallClosed = false →
      ∃ t, exec .recallTimeout s = .next t ∧ t.pwr.land.recallClosed = true ∧ t.vol.caches.manifest = [] ∧ t.live.lps = s.live.lps) ∧
    (up → m ≠ s.pwr.modid → ∃ t, exec (.left m) s = .next t ∧ (∀ e ∈ t.vol.caches.manifest,
        (∀ q, s.ownLine e.1 = some q → s.manError e.1 q.port = false) → e.2.holders &&& bit = 0) ∧
      (∀ x ∈ t.vol.caches.txns, 1024 + m.val ∉ x.wait ∧ m.val ∉ x.wbp) ∧ t.mem = s.mem ∧ t.live = s.live) ∧
    (s.pwr.phase = .landing → l.quiesced = true → l.frozen = true → l.linesDone = false →
      (∃ t, exec .lineWritebackDone s = .next t ∧ t.pwr.land.linesDone = true ∧ t.pwr.land.acks = 15 ∧ t.vol.caches.dir = [] ∧
        t.vol.held = [] ∧ t.live.lps = s.live.lps ∧ ∃ x, t.pwr.land.strays = l.strays ++ x) ∧
      (s.ownLine line.toNat = none → (∃ e ∈ s.holders line.toNat, e.2.st.dirty = true ∧ e.2.scratch = false) →
        ∃ t x, exec (.wbkAckTimeout line) s = .next t ∧ t.pwr.land.strays = l.strays ++ [x] ∧ x.line = line.toNat ∧
          x.data = s.lineBytes (s.lineKey line.toNat) ∧ x.check = strayCheck x.line x.data ∧
          (∀ a, a < 128 → (t.cline a line.toNat).st = .i) ∧ t.mem = s.mem))) ∧
  (∀ (s : State) (port : Fin 16) (dsc : BitVec 32) (stack : Fin 4), s.tidy = true → s.pwr.phase = .landing →
    let l := s.pwr.land
    let p : BitVec 16 := BitVec.ofNat 16 (2 ^ port.val)
    let b := decide (s.nv.resumed = some false)
    (l.gpf1 &&& p ≠ 0 → exec (.gpfPhase1Response port) s =
      .next { s with pwr := { s.pwr with land := { l with gpf1 := l.gpf1 &&& ~~~ p, gpf2 := l.gpf2 ||| p } } }) ∧
    (l.gpf2 &&& p ≠ 0 → exec (.gpfPhase2Response port dsc) s =
      .next { s with pwr := { s.pwr with land := { l with gpf2 := l.gpf2 &&& ~~~ p, dsc := l.dsc.put port.val dsc 0 } } }) ∧
    (l.linesDone = true → exec (.landingStoreWriteAck stack) s =
      .next { s with pwr := { s.pwr with land := { l with acks := l.acks &&& ~~~ BitVec.ofNat 4 (2 ^ stack.val) } } }) ∧
    (l.complete = true → s.pwr.due = false →
      (l.badStack = false → l.acks = 0 → ∃ t im, exec .landingSealed s = .next t ∧ t.pwr.phase = .landed ∧ t.pwr.lpsOn = false ∧
        t.powerState = (if l.cause.getLsbD 1 then 4 else 2) ∧ t.std.landed = true ∧ (t.nv.slotOf b).st = .sealed ∧
        (t.nv.slotOf b).seq = s.nv.cfg.seq + 1 ∧ (t.nv.slotOf b).strays = l.strays ∧ (t.nv.slotOf b).image = some im ∧
        im.lps = s.live.lps ∧ im.regs = s.live.regs ∧ im.landings = s.live.landings + 1 ∧ t.nv.cfg.seq = s.nv.cfg.seq + 1 ∧
        t.nv.cfg.landed = true ∧ t.nv.slotOf (!b) = s.nv.slotOf (!b) ∧ t.mem.cur = s.mem.media ∧ t.mem.media = s.mem.media ∧
        t.vol = Vol.reset) ∧
      (l.badStack = true → ∃ t, exec .landingSealed s = .next t ∧ t.pwr.phase = .unsealed ∧ t.powerState = 4 ∧ t.nv = s.nv ∧
        t.mem.cur = s.mem.media)))

/-- R363, R381, R565, R566, R606, R647: each command that starts the module begins a start where the rails are good, MODRST_N is
high and PWRFAIL_N is high; with PWRFAIL_N low the module waits; COUNT at its limit leaves it in HOLD, STUCK. R228, R381, R567,
R587, R606: a start that fails a test of its first step stops in HOLD with that test's reason; one with no image to read stops
without one; one with an image, too few sealed landings to resume from and enough good twins trains its ports, in harbour mode, with
every LP bound to a twin of its own that passed its self-test. (The order of the first tests and of the reasons is the model's
reading, log 22.) -/
def Obligations.StartsBeginTrainOrFail : Prop :=
  (∀ (s : State) (si : StartInput) (m : Fin 8), s.tidy = true → s.std.standby = true →
    let go : Prop := s.std.pwrgood = true ∧ s.std.modrst = false ∧ s.std.pwrfail = false
    let count := s.regF 0x20010 15 0
    (s.std.pwrgood = false → s.std.modrst = false → s.std.pwrfail = false →
      ∃ u : State, exec (.pwrgoodRise m si) s = .next (u.beginStart si) ∧ u.pwr.modid = m ∧ u.std.pwrgood = true ∧ u.nv = s.nv ∧ u.mem = s.mem) ∧
    (s.std.pwrgood = false → s.std.modrst = true ∨ s.std.pwrfail = true →
      ∃ t, exec (.pwrgoodRise m si) s = .next t ∧ t.std.pwrgood = true ∧ t.pwr.modid = m ∧ t.nv = s.nv ∧ t.vol = s.vol ∧
        t.pwr.phase = (if s.std.modrst then s.pwr.phase else .waiting)) ∧
    (s.std.modrst = true → s.std.pwrgood = true → s.std.pwrfail = false → s.pwr.phase ≠ .landing → s.powerState ≠ 4 →
      exec (.modrstRelease si) s = .next ({ s with std := { s.std with modrst := false } }.beginStart si)) ∧
    (s.std.modrst = true → s.std.pwrgood = true → s.pwr.phase = .landing →
      exec (.modrstRelease si) s =
        .next { s with std := { s.std with modrst := false }, pwr := { s.pwr with due := true, si := some si } }) ∧
    (go → s.pwr.phase = .waiting → exec (.pwrfailHighWait si) s = .next (s.beginStart si)) ∧
    (go → s.pwr.phase = .landed → s.nv.cfg.cause = 1 → s.planF 0x0A01 100 ≠ 0 →
      exec (.warmReturnExpiry si) s = .next (s.beginStart si)) ∧
    (go → s.std.faultHold = true → s.pwr.phase = .landed ∨ s.pwr.phase = .unsealed → bit (s.reg 0x20010) 16 = false →
      (count < s.regF 0x20008 23 16 → ∃ u : State, exec (.holdQuietExpiry si) s = .next (u.beginStart si) ∧ u.regF 0x20010 15 0 = count + 1 ∧
        u.live = s.live ∧ u.nv = s.nv ∧ u.mem = s.mem) ∧
      (s.regF 0x20008 23 16 ≤ count → ∃ t, exec (.holdQuietExpiry si) s = .next t ∧ bit (t.reg 0x20010) 16 = true ∧
        t.regF 0x20010 19 17 = 7 ∧ t.regF 0x20010 15 0 = count ∧ t.live = s.live ∧ t.pwr = s.pwr ∧ t.nv = s.nv))) ∧
  (∀ (s : State) (si : StartInput), s.tidy = true →
    let t := s.beginStart si
    let held (n : Nat) : Prop := t.pwr.phase = .startHold ∧ t.powerState = 4 ∧ t.std.faultHold = true ∧ t.regF 0x20010 19 17 = n
    let part : Prop := s.pwr.part.toNat < 4
    let i := flashSlot si.flash
    let calm : Prop := part ∧ si.otpOk = true ∧ s.nv.cfg.lcPending = 0 ∧ s.nv.cfg.fullPending = false
    (¬ part → held 1) ∧ (part → si.otpOk = false → held 4) ∧ (calm → s.stateBad = true → held 6) ∧
    (calm → s.stateBad = false → s.nv.otp.retired = true → held 5) ∧
    (calm → s.stateBad = false → s.nv.otp.retired = false →
      (si.stacksOk ≠ 15 → held 3) ∧
      (si.stacksOk = 15 →
        (si.flash.a = none → si.flash.b = none → t.pwr.phase = .noImage ∧ t.powerState = 3 ∧ bit (t.reg 0x10000) 13 = true) ∧
        (s.nv.newest = none → (∀ b, (slotCheck s.nv.otp (i b)).1 = 0) → s.nv.cfg.svnPending = none →
          s.lpCount ≤ (s.bindingOrder si.goodTwins).length →
          t.pwr.phase = .training ∧ t.pwr.resume = false ∧ t.powerState = 3 ∧ t.harbour = true ∧ t.debug = 0 ∧
            (∀ p : Fin 16, t.portState p.val = 1) ∧ (∀ l : Fin 4, t.linkState l.val = 1) ∧
            (∀ n : LpId, n.val < s.lpCount → ∃ w : Fin 64, t.lp n = Lp.fresh w ∧ si.goodTwins.getLsbD w.val = true) ∧
            ∀ n k : LpId, n.val < s.lpCount → k.val < s.lpCount → (t.lp n).twin = (t.lp k).twin → n = k))))

/-- R382 to R385, R390, R592, R606 to R608: the keelcode of an accepted image is loaded and every LP starts at its entry in K, alone
in its bank and on its own stack; a resume commits, every LP goes on from its landed registers and the slot is CONSUMED; a flash
slot that is not read leaves a cold start without an image where no other is; harbour mode ends at keel's word. (The readings of log
22.) -/
def Obligations.StartsEndInRun : Prop :=
  ∀ (s : State) (src : Src) (si : StartInput) (b : Bool), s.tidy = true →
    (∀ img, s.pwr.si = some si → s.pwr.phase = .training → s.pwr.resume = false → flashSlot si.flash s.pwr.imgB = some img →
      let o := (s.endTraining.readImage img true).2
      let s1 : State := { s.endTraining with live := { s.endTraining.live with sets := o.sets } }
      let k := keelOf img
      ((s1.setReport o.report).replayCarried.replayOpen).keelOk o.sets k = true →
      ∃ t, exec .keelcodeLoad s = .next t ∧ t.pwr.phase = .running ∧ t.powerState = 0 ∧ t.pwr.lpsOn = true ∧ t.live.sets = o.sets ∧
        ∀ n : LpId, n.val < s.lpCount →
          let x := t.slipN n 0
          (t.lp n).st = .running ∧ (t.lp n).run = 0 ∧ x.level = 0 ∧ x.ie = false ∧ x.pc = BitVec.ofNat 64 k.entry ∧
            x.g.get 31 = BitVec.ofNat 64 k.bytes ∧ (x.b.get 0).base = k.load ∧ (x.b.get 14).base = k.stack + n.val * k.bytes ∧
            (t.lp n).twin = (s.lp n).twin) ∧
    (∀ img im, s.pwr.phase = .training → s.pwr.resume = true → s.nv.newest = some b → s.pwr.si = some si →
      flashSlot si.flash s.pwr.imgB = some img → (s.nv.slotOf b).image = some im →
      ∃ t, exec .resumeCommit s = .next t ∧ t.pwr.phase = .running ∧ t.powerState = 0 ∧ (t.nv.slotOf b).st = .consumed ∧
        t.nv.resumed = some b ∧ t.live.resumes = s.live.resumes + 1 ∧ bit (t.evt 129) 1 = true ∧
        ∀ n : LpId, n.val < s.lpCount → (t.lp n).slips = (s.lp n).slips.map (fun y => { y with ss := false })) ∧
    (s.pwr.phase = .training → s.pwr.resume = false → s.pwr.si = some si → s.pwr.imgB = b →
      flashSlot si.flash (!b) = none →
      ∃ t, exec (.flashReadTimeout b) s = .next t ∧ t.pwr.phase = .noImage ∧ bit (t.reg 0x10000) 13 = true ∧ t.live.lps = s.live.lps) ∧
    (s.srcKeel src = true → s.harbour = true → s.pwr.phase = .running →
      ∃ t, exec (.harbourExit src) s = .next t ∧ t.harbour = false ∧ bit (t.reg 0x10000) 14 = true ∧ t.live.lps = s.live.lps)

/-- R41, R370, R388, R389, R573, R640, R647, R651: power lost in RUN lands nothing and leaves memory as the expanders hold it;
MODRST_N in RUN stops the module; clocks that stop for heat land nothing; the standby rails lost and back leave the collector at its
reset values; LAND_ELAPSED and the timebase mark are written. (The readings of log 22.) -/
def Obligations.PowerPinsStopTheModule : Prop :=
  ∀ (s : State) (v : Word), s.tidy = true →
    let off (t : State) (st : Nat) : Prop := t.pwr.phase = .off ∧ t.powerState = st ∧ t.pwr.lpsOn = false ∧ t.vol = Vol.reset ∧
      t.mem.cur = s.mem.media ∧ t.mem.media = s.mem.media ∧ t.nv = s.nv
    (s.std.pwrgood = true → s.pwr.phase = .running → ∃ t, exec .pwrgoodFall s = .next t ∧ off t 5 ∧ t.std.pwrgood = false) ∧
    (s.std.pwrgood = true → s.pwr.phase = .landed → (∃ b, s.nv.newest = some b ∧ (s.nv.slotOf b).st = .sealed) →
      ∃ t, exec .pwrgoodFall s = .next t ∧ t.pwr.phase = .landed ∧ t.powerState = (if s.std.faultHold then 4 else 2) ∧ t.nv = s.nv) ∧
    (s.std.standby = true → s.std.modrst = false → s.std.pwrgood = true → s.pwr.phase = .running →
      ∃ t, exec .modrstAssert s = .next t ∧ off t 3 ∧ t.std.modrst = true ∧ t.pwr.rst = true) ∧
    (s.islandsOn = true → s.pwr.phase = .running → ∃ t, exec .thermalShutdown s = .next t ∧ off t 5) ∧
    (s.std.standby = true → s.pwr.phase ≠ .landing → ∃ t, exec .standbyLoss s = .next t ∧ t.std = { Std.reset with standby := false } ∧
      t.live = Live.reset ∧ t.vol = Vol.reset ∧ t.nv = s.nv ∧ t.mem.cur = s.mem.media ∧ t.pwr.phase = .off) ∧
    (s.std.standby = false → exec .standbyReturn s = .next { s with std := Std.reset }) ∧
    (s.std.pwrgood = true → s.pwr.phase = .waiting ∨ s.pwr.phase = .off ∨ s.pwr.phase = .training →
      ∃ t, exec (.landElapsedWrite v) s = .next t ∧ t.regF 0x30010 39 0 = bits v 39 0 ∧ bit (t.reg 0x30010) 63 = bit v 63 ∧
        (∀ o, o ≠ 0x30010 → t.reg o = s.reg o) ∧ t.live.lps = s.live.lps ∧ t.mem = s.mem) ∧
    (s.pwr.phase = .running → ∃ t, exec .timebaseMark s = .next t ∧ t.nv.cfg = { s.nv.cfg with tbMark := some s.live.time } ∧
      t.nv.slotA = s.nv.slotA ∧ t.nv.slotB = s.nv.slotB ∧ t.nv.parks = s.nv.parks ∧ t.live = s.live ∧ t.vol = s.vol ∧
      t.mem = s.mem ∧ t.pwr = s.pwr ∧ t.std = s.std)

/-! ## The channel -/

/-- R403, R410, R411, R441, R447: each command of the management function that its sender may give and that passes its checks has
its effect and answers 0 in CH_RESULT; one that fails a check changes nothing but that register; one whose target table lies in a
line with an open transaction waits with BUSY set, and while it waits another is ignored. (Which failure is answered first, and
that wait, are the model's choices, log 20.) -/
def Obligations.ManagementCommandsTakeEffect : Prop :=
  ∀ (s : State) (src : Src) (vcf : Fin 1023) (a0 a1 : Word), s.tidy = true → s.srcMay src 1 = true → s.pwr.phase = .running →
    s.vol.mfWait = none →
    let n := vcf.val
    let v := s.vcf n
    (∀ opcode k, (s.mf opcode k a0 a1).1 ≠ 0 → (s.mf opcode k a0 a1).2 = s) ∧
    let ok (i : Instr) (f : State → Prop) : Prop := ∃ t : State, exec i s = .next t ∧ t.reg 0x400030 = 0 ∧ f t
    let keeps (t : State) : Prop := t.live.lps = s.live.lps ∧ t.mem = s.mem ∧ t.nv = s.nv
    let args : State := (s.setReg 0x400018 a0).setReg 0x400020 a1
    let arg : State := (s.setReg 0x400018 0).setReg 0x400020 0
    (∀ m u, v.st = 0 → bits a0 15 8 ≤ 0x42 → bits a0 7 6 = 0 → bits a0 63 47 = 0 → 1 ≤ bits a0 23 16 → 1 ≤ bits a0 46 24 →
      bits a0 46 24 ≤ 4194304 → bits a1 7 0 = 0 → 1 ≤ bits a1 63 52 → bits a1 63 52 * 16 ≤ 4096 →
      args.readTable (bits a1 51 8 * 256) (bits a1 63 52 * 16) = .ok (m, u) →
      ok (.vcfEnable src vcf a0 a1) (fun t => t.vcf n = { Vcf.off with
        st := 1, part := bits a0 5 0, maxver := bits a0 15 8, share := bits a0 23 16, cap := bits a0 46 24,
        table := bits a1 51 8 * 256, entries := bits a1 63 52 * 16, targets := m } ∧
        t.live.lps = u.live.lps ∧ t.mem = u.mem)) ∧
    (v.st ≠ 0 → (∀ e ∈ s.live.ch.ops, (s.jent e.1).vcf ≠ n) →
      ok (.vcfDisable src vcf) (fun t => keeps t ∧ t.vcf n = Vcf.off ∧ t.qpsOf n = [] ∧
        ∀ e : Fin 16, s.regF (0xC10000 + e.val * 0x1000) 15 0 = n + 1 → t.regF (0xC10000 + e.val * 0x1000) 15 0 = 0)) ∧
    (v.st ≠ 0 → (∃ e ∈ s.live.ch.ops, (s.jent e.1).vcf = n) →
      ok (.vcfDisable src vcf) (fun t => keeps t ∧ t.vcf n = { v with st := 3, dis := true } ∧ t.live.ch.qps = s.live.ch.qps)) ∧
    (v.st = 1 ∨ v.st = 2 → 1 ≤ a0.toNat → (s.qpsOf n).length + a0.toNat ≤ 256 → (s.freePairs a0.toNat).length = a0.toNat →
      ok (.qpGrant src vcf a0) (fun t => keeps t ∧ (t.qpsOf n).length = (s.qpsOf n).length + a0.toNat ∧ t.vcf n = v)) ∧
    (∀ p, s.poolOf n a0.toNat = some p → (s.qp p).st = 1 →
      ok (.qpReclaim src vcf a0) (fun t => keeps t ∧ t.qp p = Qp.free ∧ ∀ k, k ≠ p → t.qp k = s.qp k)) ∧
    (v.st = 1 ∨ v.st = 2 → s.vecGranted (bits a0 27 16) = false → v.vecs.get (bits a0 5 0) 0 = 0 → s.srcAssigned (bits a0 27 16) = false →
      bits a0 15 6 = 0 → bits a0 63 28 = 0 → 512 ≤ bits a0 27 16 →
      ok (.vecGrant src vcf a0) (fun t => keeps t ∧ (t.vcf n).vecs.get (bits a0 5 0) 0 = bits a0 27 16 ∧ (t.vcf n).st = v.st)) ∧
    (v.vecs.sorted = true → v.vecs.get (bits a0 5 0) 0 ≠ 0 → bits a0 63 6 = 0 →
      (∀ e ∈ s.qpsOf n, 2 ≤ e.2.st → e.2.vec ≠ some (bits a0 5 0)) →
      ok (.vecReclaim src vcf a0) (fun t => keeps t ∧ (t.vcf n).vecs.get (bits a0 5 0) 0 = 0 ∧ (t.vcf n).st = v.st)) ∧
    (v.st ≠ 0 → 1 ≤ a0.toNat → a0.toNat ≤ 255 → ok (.setShare src vcf a0) (fun t => keeps t ∧ t.vcf n = { v with share := a0.toNat })) ∧
    (v.st ≠ 0 → arg.readTable v.table v.entries = .error 0x100 →
      ∃ t x, exec (.tgtSync src vcf) s = .next t ∧ t.reg 0x400030 = 8 ∧ t.vol.mfWait = some x ∧ t.vcf n = v ∧ keeps t ∧
        ∃ u, exec (.setShare src vcf a0) t = .next u ∧ u.reg 0x400030 = 8 ∧ u.vol = t.vol ∧ u.live.ch = t.live.ch) ∧
    (∀ m u, v.st ≠ 0 → arg.readTable v.table v.entries = .ok (m, u) →
      ok (.tgtSync src vcf) (fun t => t.vcf n = { v with targets := m } ∧ t.live.lps = u.live.lps ∧ t.mem = u.mem)) ∧
    (let o := 0x300100 + 8 * bits a0 5 0
     let base := bits a0 27 16
     let cnt := bits a0 43 32
     (bit (s.reg o) 20 = false → (∀ x, base ≤ x → x < base + cnt → s.vecGranted x = false ∧ s.srcAssigned x = false) →
       bits a0 7 6 = 0 → bits a0 15 14 = 0 → bits a0 31 28 = 0 → bits a0 63 44 = 0 → cnt ≤ 3584 →
       (0 < cnt → 512 ≤ base ∧ base + cnt ≤ 4096) →
       ok (.funcAssign src a0) (fun t => keeps t ∧ bit (t.reg o) 20 = true ∧ t.regF o 27 22 = bits a0 13 8 ∧ t.regF o 39 28 = base ∧
         t.regF o 51 40 = cnt)) ∧
     (bits a0 63 6 = 0 → bit (s.reg o) 20 = true → ok (.funcRelease src a0) (fun t => keeps t ∧ bit (t.reg o) 20 = false ∧ t.regF o 27 22 = 0)))

/-- R403, R412 to R416, R420: opening, closing, queue commands and doorbells of a VCF, from a level that may store to its page. -/
def Obligations.QueueCommandsAndDoorbells : Prop :=
  ∀ (s : State) (src : Src) (vcf : Fin 1023) (qp : Fin 256) (v : Word) (w p : Nat) (tail : BitVec 16), s.tidy = true →
    let n := vcf.val
    let x := s.vcf n
    let q := s.qp p
    let o := 0x800000 + n * 0x1000
    let keeps (t : State) : Prop := t.mem = s.mem ∧ t.live.lps = s.live.lps ∧ t.nv = s.nv
    let common (w : Nat) : Prop := w ∈ [0x30, 0x31, 0x32, 0x40, 0x41, 0x42] ∧ bits v 15 8 ≤ w ∧ w ≤ bits v 7 0 ∧ w ≤ x.maxver
    let may : Prop := s.vcfMay src = true ∧ s.poolOf n qp.val = some p ∧ q.vcf = n ∧ q.loc = qp.val
    (s.vcfMay src = true → bits v 63 17 = 0 → x.st = 1 →
      (common w → (∀ k, common k → k ≤ w) →
        ∃ t, exec (.vcfOpen src vcf v) s = .next t ∧ t.vcf n = { x with st := 2, version := w } ∧ keeps t) ∧
      ((∀ k, ¬ common k) → ∃ t, exec (.vcfOpen src vcf v) s = .next t ∧ t.vcf n = { x with version := 0 } ∧ keeps t)) ∧
    (s.vcfMay src = true → x.st = 2 →
      ((∀ e ∈ s.live.ch.ops, (s.jent e.1).vcf ≠ n) → ∃ t, exec (.vcfClose src vcf) s = .next t ∧
        t.vcf n = { x with st := 1, version := 0, dis := false } ∧ (∀ e ∈ t.qpsOf n, e.2.st = 1) ∧ keeps t) ∧
      ((∃ e ∈ s.live.ch.ops, (s.jent e.1).vcf = n) → ∃ t, exec (.vcfClose src vcf) s = .next t ∧
        t.vcf n = { x with st := 3, dis := false } ∧ t.live.ch.qps = s.live.ch.qps ∧ keeps t)) ∧
    (may → x.st = 2 → q.st = 1 →
      let b0 := s.reg (o + 0x818)
      let b1 := s.reg (o + 0x820)
      let b2 := s.reg (o + 0x828)
      let sqN := (bits b0 63 52 + 1) * 16
      let cqN := (bits b1 63 52 + 1) * 16
      (x.version < 0x40 → sqN ≤ 4096 ∧ cqN ≤ 4096 ∧ (bit b2 6 = false → bits b2 5 0 < 16)) →
      (bit b2 6 = false → x.vecs.get (bits b2 5 0) 0 ≠ 0) →
      s.queueOk x.part (bits b0 51 12 * 4096) (sqN * 64) = true → s.queueOk x.part (bits b1 51 12 * 4096) (cqN * 32) = true →
      ∃ t, exec (.qcreate src vcf qp) s = .next t ∧ t.regF (o + 0x830) 3 0 = 8 ∧ keeps t ∧
        t.qp p = { Qp.free with
          vcf := n, loc := qp.val, st := 2, sq := bits b0 51 12 * 4096, sqN := sqN, cq := bits b1 51 12 * 4096, cqN := cqN
          vec := if bit b2 6 then none else some (bits b2 5 0)
          coalCount := bits b2 15 8, coalUs := bits b2 31 16 }) ∧
    (may → x.st ≠ 0 → q.st = 2 →
      ((∀ e ∈ s.live.ch.ops, e.2.pool ≠ p) → ∃ t, exec (.qdelete src vcf qp) s = .next t ∧ t.regF (o + 0x830) 3 0 = 8 ∧ keeps t ∧
        t.qp p = { Qp.free with vcf := n, loc := qp.val, st := 1 }) ∧
      ((∃ e ∈ s.live.ch.ops, e.2.pool = p) → ∃ t, exec (.qdelete src vcf qp) s = .next t ∧ t.regF (o + 0x830) 3 0 = 4 ∧ keeps t ∧
        t.qp p = { q with st := 3 })) ∧
    (may → x.st ≠ 0 → ∃ t, exec (.query src vcf qp) s = .next t ∧ bit (t.reg (o + 0x830)) 3 = true ∧
      t.regF (o + 0x830) 5 4 = q.st % 4 ∧ t.regF (o + 0x830) 31 16 = q.accept % 65536 ∧ t.regF (o + 0x830) 47 32 = s.sqHead p % 65536 ∧
      t.regF (o + 0x830) 63 48 = q.cqTail % 65536 ∧ t.live.ch = s.live.ch ∧ keeps t) ∧
    (s.pwr.phase = .running ∨ s.pwr.phase = .landing → x.st ≠ 0 → s.poolOf n qp.val = some p →
      let room := q.sqN - 1 - (q.tail + q.sqN - s.sqHead p) % q.sqN
      let freed := (q.cqTail + q.cqN - q.head) % q.cqN
      let bad (i : Instr) : Prop := ∃ t, exec i s = .next t ∧ bit (t.reg (o + 0x808)) 2 = true ∧ t.live.ch = s.live.ch ∧ keeps t
      (q.st = 2 → tail.toNat < q.sqN → (tail.toNat + q.sqN - q.tail) % q.sqN ≤ room →
        ∃ t, exec (.sqDoorbell vcf qp tail) s = .next t ∧ t.qp p = { q with tail := tail.toNat } ∧
          (∀ k, k ≠ p → t.qp k = s.qp k) ∧ t.live.regs = s.live.regs ∧ keeps t) ∧
      (q.st ≠ 2 ∨ q.sqN ≤ tail.toNat ∨ room < (tail.toNat + q.sqN - q.tail) % q.sqN → bad (.sqDoorbell vcf qp tail)) ∧
      (2 ≤ q.st → tail.toNat < q.cqN → (tail.toNat + q.cqN - q.head) % q.cqN ≤ freed →
        ∃ t, exec (.cqDoorbell vcf qp tail) s = .next t ∧ (t.qp p).head = tail.toNat ∧ t.mem = s.mem ∧ t.live.lps = s.live.lps ∧
          t.live.regs = s.live.regs) ∧
      (q.st < 2 ∨ q.cqN ≤ tail.toNat ∨ freed < (tail.toNat + q.cqN - q.head) % q.cqN → bad (.cqDoorbell vcf qp tail)))

/-- R417, R418, R424, R428, R429, R432: a descriptor is fetched from its slot, and accepted it has a journal entry of its own; a
NOP, a CHAIN whose members have ended and a BARRIER with nothing earlier in its scope end with their status. R304, R414, R423, R430,
R433, R437: a completion comes once the homes have accepted what its operation wrote; one the home accepts frees its journal entry and its slot and is counted; a coalesced vector is raised when its time
is over. (Which free journal entry is taken is the model's choice, log 20.) -/
def Obligations.DescriptorsAreAcceptedAndComplete : Prop :=
  (∀ (s : State) (pool : Fin 16384) (op : BitVec 22), s.tidy = true →
    let p := pool.val
    let q := s.qp p
    let f := s.vol.fetched.get p []
    let i := op.toNat
    (∀ l d u, s.accepting p = true → 0 < q.sqN → f.length < (q.tail + q.sqN - q.accept) % q.sqN →
      s.hubPieces (s.vcf q.vcf).part (q.sq + (q.accept + f.length) % q.sqN * 64) 64 false = some l →
      (chReadPieces 0 l).run s = .ok d u →
      ∃ t, exec (.descriptorFetch pool) s = .next t ∧ t.vol.fetched.get p [] = f ++ [d] ∧ t.live.ch = u.live.ch ∧ t.mem = u.mem) ∧
    (∀ d r, f = d :: r → s.accepting p = true → chainLen (s.vcf q.vcf).version d = 0 →
      s.nv.journal.length < 4194304 → (s.nv.journal.filter (fun e => decide (e.2.vcf = q.vcf))).length < (s.vcf q.vcf).cap →
      ∃ t k o, exec (.descriptorAccept pool) s = .next t ∧ s.jent k = Jent.free ∧ t.op? k = some o ∧ o.desc = d ∧ o.pool = p ∧
        o.head = none ∧ o.fin = none ∧ (t.jent k).st = 1 ∧ (t.jent k).vcf = q.vcf ∧ (t.jent k).sqSlot = q.accept ∧
        (t.jent k).seq = s.live.ch.seq + 1 ∧ (t.jent k).crc = crc32c d ∧
        (t.qp p).accept = (if q.accept + 1 = q.sqN then 0 else q.accept + 1) ∧
        (∀ m, m ≠ k → t.jent m = s.jent m ∧ t.op? m = s.op? m) ∧ t.mem = s.mem ∧ t.live.lps = s.live.lps) ∧
    (∀ o o1, s.op? i = some o → s.mayStart i o = true → s.step? i = none → (s.begin i o).op? i = some o1 → o1.checked = true →
      o1.fin = none →
      let ends (c : Instr) (st : Nat) : Prop := ∃ t o2, exec c s = .next t ∧ t.op? i = some o2 ∧ o2.fin = some (st, 0, 0) ∧
        o2.desc = o1.desc ∧ t.step? i = none ∧ t.mem = (s.begin i o).mem ∧ t.live.lps = (s.begin i o).live.lps
      (dType o.desc = 0 → ends (.nop op) 0) ∧
      (dType o.desc = 8 → o1.head = none →
        (∀ m ∈ o1.members, ∀ x, (s.begin i o).op? m = some x → x.head = some i → x.fin.isSome = true) → ends (.chain op) o1.broken) ∧
      (dType o.desc = 9 → o1.head = none →
        (∀ e ∈ (s.begin i o).live.ch.ops, ((s.begin i o).jent e.1).seq < ((s.begin i o).jent i).seq →
          ((s.begin i o).jent e.1).vcf = ((s.begin i o).jent i).vcf → e.2.pool ≠ o1.pool ∧ bit (dw o1.desc 0) 10 = false) →
        ends (.barrier op) 0))) ∧
  (∀ (s : State) (op : BitVec 22) (pool : Fin 16384), s.tidy = true →
    let i := op.toNat
    let q := s.qp pool.val
    (s.accepted i = false → exec (.completionAccepted op) s = .next s) ∧
    (∀ o l u, s.op? i = some o → (s.jent i).st = 3 → s.pwr.phase = .running → s.accepted i = true →
      s.hubPieces (s.vcf (s.jent i).vcf).part ((s.qp o.pool).cq + 32 * (s.jent i).cqSlot) 32 true = some l →
      (chWritePieces l o.cpl).run s = .ok () u →
      ∃ t, exec (.completionAccepted op) s = .next t ∧ t.op? i = none ∧ t.jent i = Jent.free ∧ t.mem = u.mem ∧
        t.live.stats.get (0x800000 + (s.jent i).vcf * 0x1000 + 0xA08) 0 =
          s.live.stats.get (0x800000 + (s.jent i).vcf * 0x1000 + 0xA08) 0 + 1) ∧
    (∀ v, q.vec = some v → q.unsig ≠ 0 → s.pwr.phase = .running → s.raisable ((s.vcf q.vcf).vecs.get v 0) = true →
      ∃ t, exec (.coalesceTimeout pool) s = .next t ∧ (t.qp pool.val).unsig = 0 ∧
        bit (t.evt ((s.vcf q.vcf).vecs.get v 0)) 1 = true ∧ t.mem = s.mem ∧ t.live.lps = s.live.lps))

/-- R427, R433, R435, R439, R440: in its turn, a step of COPY reads its input and writes it to its output; a COMPRESS, DECOMPRESS or CIPHER step is its
engine's; READ, WRITE and MIRROR-WRITE begin a step over the memory of their next part; an operation whose turn it is not waits; a completed step's entry is journaled,
and the last step fixes the result. (The coded bits of COMPRESS are opaque, log 13; the readings of log 20, whose turn it is among
them.) -/
def Obligations.StepsMoveTheirData : Prop :=
  ∀ (s : State) (op : BitVec 22) (o o1 : Op), s.tidy = true →
    let i := op.toNat
    let s1 := s.begin i o
    let j := s1.jent i
    let n := dLen o1.desc
    let fits (ty : Nat) : Prop := s.op? i = some o ∧ s.mayStart i o = true ∧ s.turn i o = true ∧ s.step? i = none ∧
      s1.op? i = some o1 ∧ o1.checked = true ∧ o1.fin = none ∧ dType o.desc = ty
    let stands (t : State) (off len : Nat) : Prop := ∃ x, t.step? i = some x ∧ x.off = off ∧ x.len = len
    (∀ eng e u, fits 5 → s1.engineFor o1.pool = some eng → s1.cmpEngine i o1.pool = some e → s1.unitBusy e = false →
      (compressStep i e eng o1 j).run s1 = .ok () u → exec (.compress op) s = .next ((s1.noteHeld u i).takeTurn i) ∧
        ∃ x, u.step? i = some x ∧ x.off = j.done ∧ x.unit = some e ∧ x.localDone = true) ∧
    (∀ eng e u, fits 6 → s1.engineFor o1.pool = some eng → s1.cmpEngine i o1.pool = some e → s1.unitBusy e = false →
      (decompressStep i e eng o1 j).run s1 = .ok () u → exec (.decompress op) s = .next ((s1.noteHeld u i).takeTurn i) ∧
        ∃ x, u.step? i = some x ∧ x.off = j.done ∧ x.unit = some e ∧ x.localDone = true) ∧
    (∀ eng e u, fits 7 → s1.engineFor o1.pool = some eng → s1.cipEngine o1.pool j.vcf = some e →
      (cipherStep i e eng o1 j).run s1 = .ok () u → exec (.cipher op) s = .next ((s1.noteHeld u i).takeTurn i) ∧
        ∃ x, u.step? i = some x ∧ x.unit = some (16 + e) ∧ x.localDone = true) ∧
    (∀ c ∈ [(1, Instr.read op), (2, Instr.write op), (3, Instr.mirrorWrite op), (4, Instr.copy op), (5, Instr.compress op),
        (6, Instr.decompress op), (7, Instr.cipher op)],
      s.op? i = some o → dType o.desc = c.1 → s.turn i o = false → exec c.2 s = .next s) ∧
    (∀ eng r src dst d u1 u2 u3 u4 u5, fits 4 → s1.engineFor o1.pool = some eng →
      let k := min 262144 (n - j.done)
      (ranges1 j.vcf o1.desc).run s1 = .ok r u1 → (chPiecesAll j.vcf false (sliceRanges r j.done k)).run u1 = .ok src u2 →
      (chPieces j.vcf true (dw o1.desc 3 + BitVec.ofNat 64 j.done) k).run u2 = .ok dst u3 →
      (chReadPieces j.done src).run u3 = .ok d u4 → (chWritePieces dst d).run u4 = .ok () u5 →
      ∃ t, exec (.copy op) s = .next t ∧ stands t j.done k ∧ t.mem = u5.mem ∧ t.live.lps = u5.live.lps) ∧
    (∀ c ∈ [(1, Instr.read op), (2, Instr.write op)], ∀ eng r mem u1 u2 tg, fits c.1 → s1.engineFor o1.pool = some eng →
      o1.target = some tg → tKind tg = 1 → bits (dw o1.desc 0) 47 32 ≠ 0xFFFF →
      let k := min (s1.nvmeMax tg) (n - j.done)
      (ranges1 j.vcf o1.desc).run s1 = .ok r u1 → (chPiecesAll j.vcf (decide (c.1 = 1)) (sliceRanges r j.done k)).run u1 = .ok mem u2 →
      ∃ t x, exec c.2 s = .next t ∧ t.step? i = some x ∧ x.off = j.done ∧ x.len = k ∧ x.mem = mem ∧ x.localDone = false ∧
        x.remoteDone = true ∧ t.mem = u2.mem) ∧
    (∀ eng r mem u1 u2 tg x w key base, fits 1 → s1.engineFor o1.pool = some eng → o1.target = some tg → tKind tg = 2 →
      o1.degraded = false → opRemote o1 = some (x, w, key, base) → s.pwr.phase = .running → j.ts = 0 →
      let k := min 262144 (n - j.done)
      let c := u2.xing x
      c.st = 2 → c.closing = 0 → c.peerClosed = false → c.outs.length < 1024 →
      (∀ e ∈ c.outs, ∀ q, e.2 = some q → q.window = w → q.op ≠ i → rangesMeet q.woff q.len (base + j.done) k = false) →
      (ranges1 j.vcf o1.desc).run s1 = .ok r u1 → (chPiecesAll j.vcf true (sliceRanges r j.done k)).run u1 = .ok mem u2 →
      ∃ t y, exec (.read op) s = .next t ∧ t.step? i = some y ∧ y.rqn = some (x, c.rqn + 1) ∧ y.remoteDone = false ∧
        (t.xing x).outs.get (c.rqn + 1) none = some ⟨i, true, w, base + j.done, k, mem, 0, none⟩ ∧
        (t.jent i).ts = BitVec.ofNat 64 (c.rqn + 1)) ∧
    (∀ eng r mem u1 u2, fits 3 → s1.engineFor o1.pool = some eng → o1.target = none → o1.degraded = true →
      let k := min 262144 (n - j.done)
      (ranges1 j.vcf o1.desc).run s1 = .ok r u1 → (chPiecesAll j.vcf false (sliceRanges r j.done k)).run u1 = .ok mem u2 →
      ∃ t x, exec (.mirrorWrite op) s = .next t ∧ t.step? i = some x ∧ x.off = j.done ∧ x.len = k ∧ x.localDone = true ∧
        x.remoteDone = true ∧ t.mem = u2.mem) ∧
    (∀ x, s.pwr.phase = .running → s.step? i = some x → s.op? i = some o → x.localDone = true → x.remoteDone = true → x.fin = none →
      o.fin = none → dType o.desc ≠ 3 →
      let last : Prop := dType o.desc ≤ 4 ∧ dLen o.desc ≤ (s.jent i).done + x.len
      ∃ t o2, exec (.stepComplete op) s = .next t ∧ t.step? i = none ∧ (t.jent i).done = (s.jent i).done + x.len ∧
        (t.jent i).out = x.out ∧ (t.jent i).ts = x.ts ∧ t.op? i = some o2 ∧ (last → o2.fin = some (0, dLen o.desc, 0)) ∧
        (¬ last → o2 = o ∧ (t.jent i).st = 2) ∧ t.mem = s.mem)

/-- R436, R442 to R445, R498: an NVMe result completes its step's NVMe part or fixes its operation's result; a path-related status,
a timeout, a fatal status and an access outside the steps' memory fail the path, whose steps go elsewhere with REEXEC; a
controller's reset makes its path usable, or absent. -/
def Obligations.PathsCompleteFailAndReturn : Prop :=
  ∀ (s : State) (op : BitVec 22) (c : Fin 64), s.tidy = true →
    let i := op.toNat
    let r := 0x402000 + 8 * c.val
    let usable : Prop := s.regF r 22 20 = 1 ∨ s.regF r 22 20 = 2
    let keeps (t : State) : Prop := t.mem = s.mem ∧ t.live.lps = s.live.lps
    let failed (t : State) : Prop := t.regF r 22 20 = 3 ∧ t.regF r 47 32 = min 0xFFFF (s.regF r 47 32 + 1) ∧
      bit (t.reg 0x400040) 1 = true ∧ keeps t ∧
      ∀ k x, s.step? k = some x → x.ctrlr = some c.val → x.localDone = false → (t.jent k).reexec = true ∧
        ∃ y, t.step? k = some y ∧ y.ctrlr ≠ some c.val ∧ y.localDone = false ∧ y.off = x.off ∧ y.len = x.len ∧ y.mem = x.mem
    (∀ x o (sct : BitVec 3) (sc : BitVec 8), s.step? i = some x → s.op? i = some o → x.ctrlr = some c.val → x.localDone = false →
      s.pwr.phase = .running →
      (sct = 0 → sc = 0 → x.fin = none →
        ∃ t, exec (.nvmeCompletion op sct sc) s = .next t ∧ t.step? i = some { x with localDone := true } ∧ keeps t ∧ t.nv = s.nv ∧
          t.live = s.live) ∧
      (sct ≠ 3 → ¬ (sct = 0 ∧ sc = 0) → x.remoteDone = true → o.fin = none →
        ∃ t o2, exec (.nvmeCompletion op sct sc) s = .next t ∧ t.op? i = some o2 ∧ t.step? i = none ∧ keeps t ∧
          o2.fin = some (0x0C, (s.jent i).done, sct.toNat * 256 + sc.toNat)) ∧
      (usable → ∃ t, exec (.nvmeCompletion op 3 sc) s = .next t ∧ failed t) ∧
      (usable → ∃ t, exec (.nvmeTimeout op) s = .next t ∧ failed t)) ∧
    (s.mainOn = true → usable → ∃ t, exec (.controllerFatalStatus c) s = .next t ∧ failed t) ∧
    (s.mainOn = true → s.regF r 22 20 = 1 ∨ s.regF r 22 20 = 3 →
      (∃ t, exec (.controllerResetDone c true) s = .next t ∧ t.regF r 22 20 = 2 ∧ bit (t.reg 0x400040) 2 = true ∧ keeps t ∧
        ∀ k y, s.step? k = some y → y.localDone = true ∨ y.ctrlr.isSome = true → t.step? k = some y) ∧
      (∃ t, exec (.controllerResetDone c false) s = .next t ∧ t.regF r 22 20 = 4 ∧ keeps t ∧
        t.vol = { s.vol with verifying := s.vol.verifying.erase c.val })) ∧
    (∀ o, s.op? i = some o → o.fin = none → s.pwr.phase = .running →
      let ends (detail : Nat) : Prop := ∃ t o2, exec (.pathWaitExpiry op) s = .next t ∧ t.op? i = some o2 ∧ t.step? i = none ∧
        o2.fin = some (0x0D, s.chDone i 0x0D, detail) ∧ keeps t
      (∀ x, s.step? i = some x → x.localDone = false → x.ctrlr = none → x.remoteDone = true → ends 0) ∧
      (s.step? i = none → o.checked = true → dType o.desc = 5 ∨ dType o.desc = 6 →
        (∀ e, e < 8 → s.regF (0xC00000 + e * 0x1000) 1 0 ≠ 0) → ends 0x100) ∧
      (s.step? i = none → o.checked = true → dType o.desc = 7 →
        (∀ e ∈ s.cipFor (s.jent i).vcf, s.regF (0xC10010 + e * 0x1000) 1 0 ≠ 0) → ends 0x200)) ∧
    (∀ (write : Bool) (addr : BitVec 52) (data : List Byte) (len : Nat), s.pwr.phase = .running → usable →
      let n := if write then data.length else len
      let a := addr.toNat
      0 < n →
      (∀ k x o m b, s.step? k = some x → s.op? k = some o → x.ctrlr = some c.val → x.localDone = false →
        (dType o.desc = 1 ↔ write = true) → (b, m) ∈ x.mem → b ≤ a → a + n ≤ b + m →
        (∀ u, write = true → (chWritePieces ((piecesOf a n).map (fun p => (p.1 * 256 + p.2.1, p.2.2))) data).run s = .ok () u →
          ∃ t, exec (.nvmeUpstreamAccess c write addr data len) s = .next t ∧ t.mem = u.mem ∧ t.live = u.live ∧ t.nv = u.nv) ∧
        (∀ d u, write = false → s.readAbs a n = .ok d u → exec (.nvmeUpstreamAccess c write addr data len) s = .next u)) ∧
      ((∀ k x, s.step? k = some x → x.ctrlr = some c.val → x.localDone = true) →
        ∃ t, exec (.nvmeUpstreamAccess c write addr data len) s = .next t ∧ bit (t.reg 0x400040) 4 = true ∧ failed t))

/-- R268, R406, R446, R447, R452: an assigned function's event write raises a source of its range, its other accesses go through its
partition's hub extents (a write within one line of this module's memory stores its bytes there and no others, poisoned if it is
poisoned; a read changes no byte), and what those refuse is dropped and logged; a PCIe link's coming up and going down are shown in
its register, counted and reported. (That an access whose line has an open transaction is sent again is the model's form, log 2.) -/
def Obligations.UpstreamAccessesAndPcieLinks : Prop :=
  ∀ (s : State), s.tidy = true →
    let keeps (t : State) : Prop := t.mem = s.mem ∧ t.live.lps = s.live.lps
    (∀ (f : Fin 64) (write : Bool) (addr : BitVec 52) (data : List Byte) (len : Nat) (poison : Bool), s.pwr.phase = .running →
      let o := 0x300100 + 8 * f.val
      bit (s.reg o) 20 = true →
      let i := Instr.upstreamDma f write addr data len poison
      let event : Prop := write = true ∧ addr.toNat = 0xFFFFFFFFFF000 ∧ data.length = 4
      let src := leNat data % 4096
      let mine : Prop := s.regF o 39 28 ≤ src ∧ src < s.regF o 39 28 + s.regF o 51 40
      let n := if write then data.length else len
      (event → mine → ∃ t, exec i s = .next t ∧ (256 ≤ src → bit (t.evt src) 1 = true) ∧ keeps t) ∧
      (event → ¬ mine → ∃ t, exec i s = .next t ∧ bit (t.reg 0x400040) 4 = true ∧ bit (t.reg o) 21 = bit (s.reg o) 21 ∧ keeps t) ∧
      (¬ event → s.hubPieces (s.regF o 27 22) addr.toNat n write = none →
        ∃ t, exec i s = .next t ∧ bit (t.reg o) 21 = true ∧ bit (t.reg 0x400040) 4 = true ∧ keeps t) ∧
      (∀ l, ¬ event → s.hubPieces (s.regF o 27 22) addr.toNat n write = some l →
        (∀ u, write = true → (chWritePieces l data).run s = .ok () u → exec i s = .next (if poison then u.poisonPieces l else u)) ∧
        (∀ d u, write = false → (chReadPieces 0 l).run s = .ok d u → exec i s = .next u)) ∧
      (∀ a k r, ¬ event → s.hubPieces (s.regF o 27 22) addr.toNat n write = some [(a, k)] → s.ownLine (a / 256) = some r →
        s.portState r.port = 2 → s.txnOpen (a / 256) = false → s.man (a / 256) r.port = Man.none →
        let b := r.key * 256 + a % 256
        (write = true → ∃ t, exec i s = .next t ∧ t.mem.cur.bytes b data.length = data ∧
          (∀ x, x < b ∨ b + data.length ≤ x → t.mem.cur.byte x = s.mem.cur.byte x) ∧ (poison = true → t.linePoison r = true) ∧
          t.live.lps = s.live.lps) ∧
        (write = false → ∃ t, exec i s = .next t ∧ t.mem.cur = s.mem.cur ∧ t.live.lps = s.live.lps))) ∧
    (∀ (l : Fin 16) (speed : BitVec 3) (width : BitVec 5), s.mainOn = true →
      let o := 0x300000 + 8 * l.val
      (s.regF o 2 0 = 1 ∨ s.regF o 2 0 = 2 → ∃ t, exec (.pcieLinkUp l speed width) s = .next t ∧ t.regF o 2 0 = 3 ∧
        t.regF o 6 4 = speed.toNat ∧ t.regF o 11 7 = width.toNat ∧ t.regF o 31 16 = s.regF o 31 16 ∧ keeps t ∧
        (s.live.plan.get (0x0702 * 65536 + l.val) 0 ≠ 1 → ∀ c : Fin 64, Config.ctrlrLink c.val = l.val →
          t.regF (0x402000 + 8 * c.val) 19 16 = l.val ∧ t.regF (0x402000 + 8 * c.val) 22 20 = 1)) ∧
      (s.regF o 2 0 = 3 → ∃ t, exec (.pcieLinkDown l) s = .next t ∧ t.regF o 2 0 = 1 ∧
        t.regF o 31 16 = min 0xFFFF (s.regF o 31 16 + 1) ∧ (t.std.reports.getLast?).map (·.1) = some (0x1C8 + l.val) ∧ keeps t ∧
        ∀ c : Fin 64, s.regF (0x402000 + 8 * c.val) 19 16 = l.val →
          s.regF (0x402000 + 8 * c.val) 22 20 = 1 ∨ s.regF (0x402000 + 8 * c.val) 22 20 = 2 →
          t.regF (0x402000 + 8 * c.val) 22 20 = 3))

/-! ## Florix and the cipher engines -/

/-- R465 to R471, R485, R493, R517 to R519: the commands of the Florix register block, and the claim, release and forced release of
a cipher engine, from an agent that may give them. A command whose entry lies in a line with an open transaction waits with BUSY set,
and another is ignored meanwhile (the model's choice, log 20). -/
def Obligations.FlorixCommandsAndEngineOwnership : Prop :=
  ∀ (s : State) (src : Src) (xn : Fin 4096) (e : Fin 16), s.tidy = true →
    let n := xn.val
    let x := s.xing n
    let spent : Prop := 0xFFFFFFFE < s.epochCount n + 1
    let keeps (t : State) : Prop := t.mem = s.mem ∧ t.live.lps = s.live.lps
    let ok (i : Instr) (f : State → Prop) : Prop := ∃ t : State, exec i s = .next t ∧ t.reg 0xD01018 = 0 ∧ f t
    let o := 0xC10000 + e.val * 0x1000
    (s.srcMay src 1 = true → s.pwr.phase = .running → s.vol.flxWait = none →
      (bit (s.reg 0xD01008) 0 = true → s.readAbs (s.regF 0xD01008 51 18 * 262144 + 64 * n) 64 = .wait →
        ∃ t v, exec (.xsync src xn) s = .next t ∧ t.reg 0xD01018 = 8 ∧ t.vol.flxWait = some v ∧ t.live.xs = s.live.xs ∧ keeps t ∧
          exec (.xquery src xn) t = .next t) ∧
      (∀ d u, bit (s.reg 0xD01008) 0 = true → s.readAbs (s.regF 0xD01008 51 18 * 262144 + 64 * n) 64 = .ok (d, .good) u →
        let new := (clampEntry d).2
        u.entryCode new = 0 → x.st = 0 ∨ entryFixed new = entryFixed x.entry →
        ok (.xsync src xn) (fun t => t.xing n = { x with entry := new } ∧ t.mem = u.mem ∧ t.live.lps = u.live.lps)) ∧
      (x.st = 0 ∨ x.st = 4 ∨ x.st = 5 → x.valid = true →
        (x.initiate = false → ok (.xopen src xn) (fun t => t.xing n = { x with st := 1, reason := 0, resumed := false } ∧ keeps t)) ∧
        (x.initiate = true → ¬ spent → ok (.xopen src xn) (fun t => (t.xing n).st = 1 ∧ (t.xing n).reason = 0 ∧
          (t.xing n).proposed = s.epochCount n + 1 ∧ keeps t)) ∧
        (x.initiate = true → spent → ok (.xopen src xn) (fun t => (t.xing n).st = 5 ∧ (t.xing n).reason = 5 ∧
          bit (t.reg 0xD01080) 6 = true ∧ keeps t))) ∧
      (x.st = 2 → x.closing = 0 →
        (x.outs ≠ [] ∨ x.ins ≠ [] → ok (.xclose src xn) (fun t => t.xing n = { x with closing := 1 })) ∧
        (x.outs = [] → x.ins = [] → x.peerClosed = false → ok (.xclose src xn) (fun t => (t.xing n).closing = 2 ∧ (t.xing n).st = 2 ∧
          (t.xing n).seq = x.seq + 1 ∧ ∃ f ∈ (t.xing n).unacked, f.seq = x.seq + 1 ∧ f.type = 0x04 ∧ f.payload = []))) ∧
      ok (.xquery src xn) (fun t => t.regF 0xD01020 2 0 = x.st % 8 ∧ t.regF 0xD01020 7 3 = x.reason % 32 ∧
        t.regF 0xD01020 15 8 = x.version % 256 ∧ t.regF 0xD01020 19 16 = x.linkNo % 16 ∧ t.regF 0xD01020 63 32 = x.epoch % 2 ^ 32 ∧
        (∀ k, k < 8 → t.reg (0xD01028 + 8 * k) = s.live.xlatched.get (2 ^ 32 + 64 * n + 8 * k) 0) ∧ t.live.xs = s.live.xs ∧ keeps t)) ∧
    (s.srcMay src 1 = true →
      (∀ v : BitVec 16, 1 ≤ v.toNat → v.toNat ≤ 0x3FF ∨ v.toNat = 0xFFFF →
        (s.regF o 15 0 = 0 → ∃ t, exec (.cipClaim src e v) s = .next t ∧ t.regF o 15 0 = v.toNat ∧ t.regF (o + 0x10) 6 5 = 1 ∧ keeps t) ∧
        (s.regF o 15 0 ≠ 0 → ∃ t, exec (.cipClaim src e v) s = .next t ∧ t.reg o = s.reg o ∧ t.regF (o + 0x10) 6 5 = 2 ∧ keeps t)) ∧
      (s.regF o 15 0 ≠ 0x400 → s.unitBusy (16 + e.val) = false → ∃ t, exec (.cipRelease src e) s = .next t ∧ t.regF o 15 0 = 0 ∧
        t.regF (o + 0x10) 6 5 = 0 ∧ (∀ c ∈ t.vol.ctxs, c.2.1 ≠ 16 + e.val) ∧ keeps t) ∧
      (s.regF o 15 0 ≠ 0x400 → s.unitBusy (16 + e.val) = true → ∃ t, exec (.cipRelease src e) s = .next t ∧ t.reg o = s.reg o ∧
        bit (t.reg (o + 0x10)) 4 = true ∧ keeps t)) ∧
    (s.srcKeel src = true → s.regF o 15 0 ≠ 0 → ∃ t, exec (.force src e) s = .next t ∧ t.regF o 15 0 = 0 ∧
      bit (t.reg (o + 0x18)) 2 = true ∧ (∀ k y, t.step? k = some y → y.unit ≠ some (16 + e.val)) ∧
      (∀ c ∈ t.vol.ctxs, c.2.1 ≠ 16 + e.val) ∧ keeps t)

/-- R460, R462, R463, R468, R470 to R472, R474 to R480, R482, R483: a frame of its crossing's link, source, epoch and protection is
counted, acknowledges what it names, and acts when it is new within the window; a duplicate is only acknowledged; every other frame
is dropped and counted. (The order of a HELLO's tests is the model's choice, log 21.) -/
def Obligations.FlorixFramesActInOrder : Prop :=
  ∀ (s : State) (h : FlxHdr), s.tidy = true →
    let n := h.dst.toNat
    let x := s.xing n
    let q := h.seq.toNat
    let l := h.link.val
    let up : Prop := s.pwr.phase = .running ∧ s.flxSt l = 3
    let fits (st : List Nat) (epoch : Nat) : Prop := up ∧ h.zeroOk = true ∧ x.st ∈ st ∧ h.src.toNat = x.peerXid ∧ h.epoch.toNat = epoch
    let heard (st : List Nat) (epoch : Nat) : Prop := fits st epoch ∧ protOk x h = true
    let v (len : Nat) : State := (s.flxCounted h len).flxAcked h
    let new (len : Nat) : Prop := ((v len).xing n).ack < q ∧ q ≤ ((v len).xing n).ack + 1024 ∧ q ∉ ((v len).xing n).later
    let done (w : State) : State :=
      let y := w.xing n
      let a := ackOver 1024 y.ack (q :: y.later)
      (((w.setXing n { y with ack := a.1, later := a.2 }).flxUnseq n 0).flxDue n).flxSettle n
    let acts (i : Instr) (w : State) : Prop := exec i s = .next (done w)
    let drops (i : Instr) : Prop := exec i s = .next (s.flxDrop l)
    (heard [1, 2, 3] x.epoch →
      (new 0 → acts (.close h) ((v 0).setXing n { (v 0).xing n with peerClosed := true })) ∧
      (∀ (r : FlxReq) (data : List Byte),
        let len := 32 + data.length
        let w := v len
        let y := w.xing n
        let rqn := r.rqn.toNat
        (new len → ∀ st cnt, y.recorded rqn = some (st, cnt) → acts (.flxWrite h r data) (w.sendStatus n rqn st cnt)) ∧
        (new len → y.recorded rqn = none → y.ins.get rqn none = none → w.winCheck n true r ≠ 0 →
          acts (.flxWrite h r data) (w.failIn n rqn (w.winCheck n true r))) ∧
        (∀ p z, new len → y.recorded rqn = none →
          (y.ins.get rqn none = some p ∨ (y.ins.get rqn none = none ∧ w.winCheck n true r = 0 ∧
            p = ⟨false, r.window.toNat, r.woff.toNat, r.rlen.toNat, [], 0, none⟩)) →
          bit (w.winReg p.window 0) 0 = true → r.roff.toNat % fragMax y.version = 0 → data ≠ [] → r.roff.toNat + data.length ≤ p.len →
          ∀ ps, w.hubPieces (bits (w.winReg p.window 0) 8 3) (bits (w.winReg p.window 0) 51 12 * 4096 + p.woff + r.roff.toNat)
            data.length true = some ps → (chWritePieces ps data).run w = .ok () z →
          ∃ p', acts (.flxWrite h r data) (z.setXing n { z.xing n with ins := (z.xing n).ins.put rqn (some p') none }) ∧
            p'.window = p.window ∧ p'.woff = p.woff ∧ p'.len = p.len ∧ r.roff.toNat ∈ p'.frags ∧
            p'.placed = (if r.roff.toNat ∈ p.frags then p.placed else p.placed + data.length)) ∧
        (∀ p z, new len → y.outs.get rqn none = some p → p.read = true → r.roff.toNat + data.length ≤ p.len →
          (chWritePieces (slicePieces p.mem r.roff.toNat data.length) data).run w = .ok () z →
          acts (.readData h r data) (((w.noteHeld z p.op).setXing n { z.xing n with
            outs := (z.xing n).outs.put rqn (some { p with got := p.got + data.length }) none }).vcfStat (z.jent p.op).vcf 4 data.length)) ∧
        (new 32 → (v 32).winCheck n false r ≠ 0 → ((v 32).xing n).recorded rqn = none →
          acts (.readReq h r) ((v 32).failIn n rqn ((v 32).winCheck n false r))) ∧
        (∀ ps d st z, new 32 → (v 32).winCheck n false r = 0 → ((v 32).xing n).recorded rqn = none →
          (v 32).hubPieces (bits ((v 32).winReg r.window.toNat 0) 8 3)
            (bits ((v 32).winReg r.window.toNat 0) 51 12 * 4096 + r.woff.toNat) r.rlen.toNat false = some ps →
          readUntil (v 32) ps = some (d, st, z) → st ≠ 7 →
          acts (.readReq h r) (((z.putFrags n 0x12 rqn r.window.toNat r.key r.woff.toNat d).flxPump n).endIn n rqn st d.length)) ∧
        (q ≤ y.ack → exec (.flxWrite h r data) s = .next ((w.flxUnseq n 0).flxSettle n) ∧
          exec (.readData h r data) s = .next ((w.flxUnseq n 0).flxSettle n))) ∧
      (∀ (rqn : BitVec 48) (st : Byte) (cnt : BitVec 32) (p : FlxOut), new 16 → ((v 16).xing n).outs.get rqn.toNat none = some p →
        (p.read = false → acts (.flxStatus h rqn st cnt) ((v 16).flxResult n rqn.toNat st.toNat)) ∧
        (p.read = true → acts (.flxStatus h rqn st cnt) ((v 16).setXing n { (v 16).xing n with
          outs := ((v 16).xing n).outs.put rqn.toNat (some { p with status := some (st.toNat, cnt.toNat, q) }) none }))) ∧
      exec (.ack h) s = .next ((v 0).flxSettle n) ∧ exec (.keepalive h) s = .next ((v 0).flxSettle n) ∧
      (∀ kind : Byte, kind = 1 ∨ kind = 2 → ((v 1).xing n).st = 2 → ∃ t, exec (.notice h kind) s = .next t ∧ t.mem = s.mem ∧
        (t.xing n).st = (if x.version < 0x40 then 4 else 3) ∧ bit (t.reg 0xD01080) (if x.version < 0x40 then 0 else 2) = true)) ∧
    (∀ (p : FlxHello), up → h.zeroOk = true → x.valid = true → s.helloCode n h p = 0 →
      let m := max p.epoch.toNat (s.epochCount n + 1)
      (x.st = 1 ∧ ¬ (x.initiate = true ∧ p.ident.toNat < s.flxIdent.toNat) ∨ (x.st = 2 ∧ x.epoch < p.epoch.toNat) ∨
        (x.st = 3 ∧ p.rejoin = true) ∨ (x.st = 4 ∧ 0x40 ≤ x.version ∧ p.rejoin = true)) →
      ∃ t, exec (.hello h p) s = .next t ∧ (t.xing n).st = 2 ∧ (t.xing n).epoch = m ∧ t.epochCount n = m ∧
        some (t.xing n).version = x.choose p.minver.toNat p.maxver.toNat ∧ bit (t.reg 0xD01080) 1 = true) ∧
    (∀ (p : FlxHello), up → h.zeroOk = true → x.valid = true → x.st = 1 → s.helloCode n h p ≠ 0 →
      ∃ t, exec (.hello h p) s = .next t ∧ (t.xing n).st = 5 ∧ (t.xing n).reason = s.helloCode n h p ∧ t.mem = s.mem) ∧
    (∀ (p : FlxHello), heard [1, 3] x.proposed → x.proposed ≠ 0 → p.ident = x.e 1 → 1 ≤ p.epoch.toNat →
      (x.choose p.maxver.toNat p.maxver.toNat).isSome = true →
      ∃ t, exec (.helloAck h p) s = .next t ∧ (t.xing n).st = 2 ∧ (t.xing n).version = p.maxver.toNat ∧
        (t.xing n).epoch = p.epoch.toNat ∧ t.epochCount n = p.epoch.toNat) ∧
    (∀ reason : Byte, heard [1] x.proposed → ∃ t, exec (.refuse h reason) s = .next t ∧ (t.xing n).st = 5 ∧
      (t.xing n).reason = reason.toNat % 32 ∧ bit (t.reg 0xD01080) 6 = true) ∧
    (up → h.zeroOk = false ∨ x.st ∉ [1, 2, 3] ∨ h.src.toNat ≠ x.peerXid ∨ h.epoch.toNat ≠ x.epoch →
      drops (.ack h) ∧ drops (.keepalive h) ∧ drops (.close h) ∧ drops (.notice h 1) ∧ drops (.flxStatus h 0 0 0)) ∧
    (fits [1, 2, 3] x.epoch → protOk x h = false → exec (.ack h) s = .next (s.tagFail h) ∧ exec (.close h) s = .next (s.tagFail h)) ∧
    (up → exec (.nonFlorixFrame h.link) s = .next (s.flxDrop l))

/-- R304, R343, R463, R468, R471, R473 to R475, R479, R487, R490, R494, R495: the timers of a crossing, the end of a peer's WRITE once
its lines are acknowledged, and a Florix
link's coming up and going down. (The readings of log 21.) -/
def Obligations.FlorixTimersAndLinks : Prop :=
  ∀ (s : State) (xn : Fin 4096) (link : Fin 16), s.tidy = true →
    let n := xn.val
    let x := s.xing n
    let l := link.val
    let o := 0xD00100 + l / 4 * 0x10000 + 0x40 * (l % 4)
    let run : Prop := s.pwr.phase = .running
    let lps (t : State) : Prop := t.live.lps = s.live.lps
    let spent : Prop := 0xFFFFFFFE < s.epochCount n + 1
    let lost (i : Instr) : Prop := ∃ t, exec i s = .next t ∧ (t.xing n).st = 4 ∧ (t.xing n).unacked = [] ∧ (t.xing n).outs = [] ∧
      bit (t.reg 0xD01080) 0 = true ∧ lps t ∧ t.mem = s.mem
    (run → x.st = 2 → s.xUp n = true → ∃ t, exec (.keepaliveDue xn) s = .next t ∧ t.xing n = { x with unseq := x.unseq + 1 } ∧
      t.live.stats.get (2 ^ 32 + 64 * n) 0 = s.live.stats.get (2 ^ 32 + 64 * n) 0 + 1 ∧ lps t ∧ t.mem = s.mem) ∧
    (∀ (seq : BitVec 48) (f : FlxFrame), run → x.st = 2 → s.xUp n = true →
      x.unacked.find? (fun f => decide (f.seq = seq.toNat ∧ 0 < f.tries)) = some f →
      (f.tries < x.triesMax → 0x30 ≤ x.version → ∃ t, exec (.retransmitTimeout xn seq) s = .next t ∧ lps t ∧ t.mem = s.mem ∧
        t.xing n = { x with unacked := x.unacked.map (fun g => if g.seq = seq.toNat then { g with tries := g.tries + 1 } else g) }) ∧
      (f.tries < x.triesMax → x.version < 0x30 → ∃ t, exec (.retransmitTimeout xn seq) s = .next t ∧ lps t ∧ t.mem = s.mem ∧
        t.xing n = { x with unacked := x.unacked.map (fun g => if 0 < g.tries then { g with tries := g.tries + 1 } else g) }) ∧
      (∀ k, x.triesMax ≤ f.tries → ((List.range x.links.length).map (fun i => (x.link + 1 + i) % x.links.length)).find?
          (fun i => decide (s.flxSt (x.links.getD i 0) = 3)) = some k →
        ∃ t, exec (.retransmitTimeout xn seq) s = .next t ∧ (t.xing n).link = k ∧ (t.xing n).st = 2 ∧
          (∀ g ∈ (t.xing n).unacked, g.tries ≤ 1) ∧ lps t ∧ t.mem = s.mem)) ∧
    (run → x.st = 2 ∨ (x.st = 1 ∧ x.initiate = true) → lost (.lossLimitExpiry xn)) ∧
    (run → x.st = 3 ∨ (x.st = 1 ∧ x.resumed = true) → lost (.landingWaitExpiry xn)) ∧
    (run → x.st = 1 ∨ x.st = 3 → x.initiate = true → ¬ spent → ∃ t, exec (.helloResend xn) s = .next t ∧
      (t.xing n).st = x.st ∧ (t.xing n).proposed = s.epochCount n + 1 ∧ lps t ∧ t.mem = s.mem) ∧
    (run → x.st = 4 → 0x40 ≤ x.version → x.initiate = true → ¬ spent → ∃ t, exec (.rejoinTimer xn) s = .next t ∧
      (t.xing n).st = 1 ∧ (t.xing n).rejoin = true ∧ (t.xing n).proposed = s.epochCount n + 1 ∧ lps t ∧ t.mem = s.mem) ∧
    (run → x.st = 2 → x.link ≠ 0 → s.flxSt (x.links.headD 0) = 3 → ∃ t, exec (.linkReturnTimer xn) s = .next t ∧
      (t.xing n).link = 0 ∧ (t.xing n).st = 2 ∧ bit (t.reg 0xD01080) 3 = true ∧ lps t ∧ t.mem = s.mem) ∧
    (∀ (rqn : BitVec 48) (q : FlxIn), run → x.ins.sorted = true → x.ins.get rqn.toNat none = some q → q.read = false → q.len ≤ q.placed →
      let src := bits (s.winReg q.window 0) 63 52
      (s.inHeld q = true → exec (.flxRequestDone xn rqn) s = .next s) ∧
      (s.inHeld q = false → ∃ t, exec (.flxRequestDone xn rqn) s = .next t ∧ (t.xing n).ins.get rqn.toNat none = none ∧
        (t.xing n).record.getLast? = some (rqn.toNat, 0, q.len) ∧ (512 ≤ src → bit (t.evt src) 1 = true))) ∧
    (s.mainOn = true → s.flxSt l = 3 → ∃ t, exec (.flxLinkDown link) s = .next t ∧ t.flxSt l = 1 ∧
      bit (t.reg (0xD00008 + l / 4 * 0x10000)) 0 = true ∧ (t.std.reports.getLast?).map (·.1) = some (0x1D8 + l) ∧ lps t ∧ t.mem = s.mem ∧
      ∀ m, (t.xing m).st = (s.xing m).st ∧
        ((s.xing m).st = 2 → (s.xing m).linkNo = l → (∃ k ∈ (s.xing m).links, k ≠ l ∧ s.flxSt k = 3) → t.flxSt (t.xing m).linkNo = 3)) ∧
    (s.mainOn = true → s.flxSt l = 1 ∨ s.flxSt l = 2 → bit (s.reg (0xD00000 + l / 4 * 0x10000)) 0 = true → s.reg (o + 8) ≠ 0 →
      ∃ t, exec (.flxLinkUp link) s = .next t ∧ t.flxSt l = 3 ∧ bit (t.reg (0xD00008 + l / 4 * 0x10000)) 1 = true ∧
        (t.std.reports.getLast?).map (·.1) = some (0x1D8 + l) ∧ lps t ∧ t.mem = s.mem ∧
        ∀ m, (t.xing m).st = (s.xing m).st ∧ ((s.xing m).st ≠ 2 ∨ ¬ (s.xing m).links.contains l → t.xing m = s.xing m) ∧
          ((s.xing m).st = 2 → (s.xing m).links.contains l = true → t.flxSt (t.xing m).linkNo = 3))

/-! ## Root of trust, faults, tally, registers -/

/-- R534, R538 to R544, R550 to R553: the claim of the RTU, and each of its commands from a source that holds the claim, that R542
lets give it, and whose checks pass: its output, or the request it leaves pending; a source or a life cycle that may not gets
DENIED, and a source without the claim changes nothing. (Digests and signatures are opaque, log 12; the readings of log 21.) -/
def Obligations.RtuCommandsAnswerTheirClaimant : Prop :=
  ∀ (s : State) (src : Src) (w col : Nat), s.tidy = true → s.rtuWho src = some (w, col) →
    let cyc := s.nv.otp.cycle
    let own := s.regF 0x40008 1 0
    let c := s.nv.cfg
    let keeps (t : State) : Prop := t.mem = s.mem ∧ t.live.lps = s.live.lps ∧ t.vol.caches = s.vol.caches
    let pends (x : Cfg) : Nv := { s.nv with cfg := x, lsRaw := s.nv.lsRaw.filter (fun e => !decide (e.1 < 0x4000000)) }
    let answers (i : Instr) (n : Nat) (f : State → Prop) : Prop :=
      ∃ t : State, exec i s = .next t ∧ t.regF 0x40018 3 0 = 0 ∧ t.regF 0x40018 31 16 = n % 65536 ∧ f t ∧ t.mem = s.mem
    let gives (i : Instr) (l : List Byte) : Prop := answers i l.length (fun t => t.rtuBuf 0 l.length = l ∧ t.nv = s.nv ∧ keeps t)
    let asks (i : Instr) (p : Nat) (a : List Byte) : Prop :=
      answers i 0 (fun t => t.nv = pends { c with lcPending := p, lcAnchor := a } ∧ keeps t)
    let n := ((s.rtuBuf 32 1).headD 0).toNat
    (s.mainOn = true ∨ s.pwr.phase = .startHold →
      (own = 0 → ∃ t, exec (.rtuClaim src (BitVec.ofNat 2 w)) s = .next t ∧ t.regF 0x40008 1 0 = w ∧ keeps t ∧ t.nv = s.nv) ∧
      (own = w → ∃ t, exec (.rtuClaim src 0) s = .next t ∧ t.regF 0x40008 1 0 = 0 ∧ keeps t ∧ t.nv = s.nv ∧
        ∀ o, o < 0x1000 → t.reg (0x41000 + o) = 0) ∧
      (∀ v : BitVec 2, own ≠ 0 → own ≠ w → exec (.rtuClaim src v) s = .next s)) ∧
    (s.rtuOn = true → own = w →
      answers (.getStatus src) 0 (fun t => t.nv = s.nv ∧ keeps t) ∧ gives (.idCert src) s.idCertBytes ∧
      (cyc ≠ 3 →
        gives (.attest src) s.attestReport ∧ gives (.aliasCert src) s.aliasCertBytes ∧
        (col = 0 ∨ col = 2 →
          let t0 := s.rtuBuf 0 0xC48
          let action := bits (leWord (tok t0 0 8)) 10 8
          let passes : Prop := (s.partF = true ∧ cyc = 0) ∨ s.tokenCode t0 [1, 2] (fun a o =>
            if cyc = 0 then !o else if cyc = 1 then true else !(o && decide (a = 2))) = 0
          (passes → action = 1 → s.debug ≠ 2 → answers (.debugOpen src) 0 (fun t => t.debug = 1 ∧
            t.live.debugSince = max s.live.debugSince 1 ∧ t.nv = s.nv ∧ keeps t)) ∧
          (passes → action = 2 → s.pendCode = 0 → answers (.debugOpen src) 0 (fun t =>
            t.nv = pends { c with fullPending := true } ∧ t.debug = s.debug ∧ keeps t)) ∧
          answers (.debugClose src) 0 (fun t => t.debug = 0 ∧ t.nv = pends { c with fullPending := false } ∧
            (∀ k : LpId, k.val < s.lpCount → (t.lpv k).halted = false) ∧ t.live.lps = s.live.lps)) ∧
        (col = 0 → s.pendCode = 0 →
          (cyc = 0 → s.partF = false → s.tokenCode (s.rtuBuf 0x100 0xC48) [3] (fun _ o => !o) = 0 →
            asks (.provision src) 1 (s.rtuBuf 0 64)) ∧
          (cyc = 1 → s.tokenCode (s.rtuBuf 0 0xC48) [4] (fun _ o => o) = 0 → asks (.deploy src) 2 []) ∧
          (s.partF = false → s.tokenCode (s.rtuBuf 0 0xC48) [5] (fun _ _ => true) = 0 → asks (.retire src) 3 []) ∧
          (cyc = 0 → s.partF = true → asks (.factoryReset src) 4 [])) ∧
        (col = 0 → answers (.svnCommit src) 0 (fun t => keeps t ∧ ∃ new, t.nv = pends { c with svnPending := some new } ∧
          ∀ g, g < 4 →
            let old := (c.svnPending.getD s.nv.otp.floors).getD g 0
            let r := ((s.rtuBuf 0 4).getD g 0).toNat
            (s.lowestSvn g = none ∨ r = 0 → new.getD g 0 = old) ∧
            (∀ m, s.lowestSvn g = some m → r ≠ 0 → new.getD g 0 = max old (min r (min m 255))))) ∧
        (col = 0 ∨ col = 1 → n = 16 ∨ n = 24 ∨ n = 32 →
          gives (.wrap src) (keyWrap s.kek (s.rtuBuf 0 n)) ∧
          gives (.wrapRandom src) (keyWrap s.kek ((List.range n).map (Config.freeByte s.free)))))) ∧
    (∀ e ∈ [(1, Instr.getStatus src), (2, .attest src), (3, .aliasCert src), (4, .idCert src), (5, .debugOpen src),
        (6, .debugClose src), (7, .provision src), (8, .deploy src), (9, .retire src), (10, .factoryReset src), (11, .svnCommit src),
        (12, .wrap src), (13, .wrapRandom src)],
      (own ≠ w → exec e.2 s = .next s) ∧
      (s.rtuOn = true → own = w → col ∉ rtuFrom e.1 ∨ (cyc = 3 ∧ e.1 ≠ 1 ∧ e.1 ≠ 4) → exec e.2 s = .next (s.setReg 0x40018 2)))

/-- R42 to R45, R208, R240, R557, R558, R560, R561, R563, R566, R568 to R571, R579, R651: an event is counted in its window, and the
source that reaches its threshold is logged and acted on; an uncorrectable error in an L3 slice invalidates a clean line and poisons a
dirty one, and such an error in a twin's own stores is the twin's alone (the coding of DETAIL that tells them is the model's, log 57); HOLD, a collector error and a stopped fault clock begin a landing; a fenced unit is
re-admitted; readings are shown, warn, and trip. (The readings of logs 23, 36 and 37.) -/
def Obligations.FaultsAreCountedAndActedOn : Prop :=
  ∀ (s : State) (src : Src), s.tidy = true →
    let keeps (t : State) : Prop := t.mem = s.mem ∧ t.live.lps = s.live.lps ∧ t.nv = s.nv
    let cfg (n : Nat) := s.reg (0x24000 + 8 * n)
    let cnt (n : Nat) : Nat := (if 0 < s.regF (0x28000 + 8 * n) 7 0 ∧ s.std.clock - s.std.starts.get n 0 < bits (cfg n) 42 16 * 1000000
      then s.regF (0x28000 + 8 * n) 7 0 else 0) + 1
    let shows (t : State) (n : Nat) (d : BitVec 32) (left : Nat) : Prop :=
      t.regF (0x28000 + 8 * n) 7 0 = left ∧ t.regF (0x28000 + 8 * n) 31 16 = min (s.regF (0x28000 + 8 * n) 31 16 + 1) 0xFFFF ∧
      t.regF (0x28000 + 8 * n) 63 32 = d.toNat ∧ bit (t.reg (0x28000 + 8 * n)) 8 = true ∧
      ∀ c k, fcClassOf n = some (c, k) → bit (t.reg 0x20000) c = true
    let counted (i : Instr) (n : Nat) (d : BitVec 32) : Prop := (fcClassOf n).isSome = true → cnt n < bits (cfg n) 15 8 →
      ∃ t, exec i s = .next t ∧ shows t n d (cnt n) ∧ t.reg 0x20028 = s.reg 0x20028 ∧ keeps t ∧ t.pwr = s.pwr
    let h := s.regF 0x20028 7 0
    let logged (t : State) (n action : Nat) : Prop := t.regF 0x20028 7 0 = (h + 1) % 256 ∧
      t.regF (0x21000 + 16 * h) 10 0 = n ∧ t.regF (0x21000 + 16 * h) 15 12 = action ∧ t.reg (0x21008 + 16 * h) = s.live.time
    let held (t : State) : Prop := t.pwr.phase = .landing ∧ t.powerState = 1 ∧ t.std.faultHold = true ∧ t.pwr.land.cause = 2
    (∀ (n : Fin 2048) (d : BitVec 32) (ln : Nat), s.std.standby = true → s.std.reports = [] → s.std.injected = [] →
      d.getLsbD 31 = true → 0x140 ≤ n.val → n.val < 0x150 → cnt n.val < bits (cfg n.val) 15 8 →
      let a := 64 + (n.val - 0x140)
      s.lineInWay a (bits (d.setWidth 64) 17 4) (bits (d.setWidth 64) 3 0) = some ln →
      ((s.cline a ln).st.dirty = false → ∃ t, exec (.faultEvent [(n, d)]) s = .next t ∧ shows t n.val d (cnt n.val) ∧
        (t.cline a ln).st = .i ∧ keeps t) ∧
      (∀ r, (s.cline a ln).st.dirty = true → s.lineRef ln = some r → ∃ t, exec (.faultEvent [(n, d)]) s = .next t ∧
        shows t n.val d (cnt n.val) ∧ t.linePoison r = true ∧ t.cline a ln = s.cline a ln ∧ t.mem.cur = s.mem.cur)) ∧
    (∀ (n : Fin 2048) (d : BitVec 32), s.std.standby = true → s.std.reports = [] → s.std.injected = [] →
      (d.getLsbD 31 = true → ¬ (0x80 ≤ n.val ∧ n.val < 0xC0) ∧ ¬ (0x140 ≤ n.val ∧ n.val < 0x150) ∧ ¬ (0x180 ≤ n.val ∧ n.val < 0x190)) →
      counted (.faultEvent [(n, d)]) n.val d ∧
      ((fcClassOf n.val).isSome = true → bits (cfg n.val) 15 8 ≤ cnt n.val →
        (bits (cfg n.val) 2 0 = 0 → s.powerState = 0 →
          ∃ t, exec (.faultEvent [(n, d)]) s = .next t ∧ shows t n.val d 0 ∧ logged t n.val 0 ∧
            t.regF (0x21000 + 16 * h) 63 32 = d.toNat ∧ keeps t) ∧
        (bits (cfg n.val) 2 0 = 4 → s.powerState = 0 → s.pwr.phase = .running → unitOf n.val = none →
          ∃ t, exec (.faultEvent [(n, d)]) s = .next t ∧ shows t n.val d 0 ∧ logged t n.val 4 ∧ held t) ∧
        (bits (cfg n.val) 2 0 = 4 → s.powerState = 2 → s.std.faultHold = false →
          ∃ t, exec (.faultEvent [(n, d)]) s = .next t ∧ logged t n.val 7 ∧ keeps t) ∧
        (∀ k u c x, bits (cfg n.val) 2 0 = 3 → s.powerState = 0 → unitOf n.val = some (k, u) → fcClassOf n.val = some (c, x) →
          k ≠ .twin → s.isFenced k u = false →
          ∃ t, exec (.faultEvent [(n, d)]) s = .next t ∧ logged t n.val 3 ∧ (k, u, c) ∈ t.std.fenced))) ∧
    (s.std.standby = true → s.powerState = 0 → s.pwr.phase = .running →
      ∃ t, exec .collectorError s = .next t ∧ held t ∧ logged t 0x215 4 ∧ t.std.reload = true) ∧
    (s.pwr.phase = .running → ∃ t, exec .faultClockStop s = .next t ∧ held t ∧ t.std.reload = true) ∧
    (s.pwr.phase = .running → s.regF 0x20008 37 24 ≠ 0 → s.regF 0x20010 15 0 ≠ 0 →
      ∃ t, exec .recoveryDecay s = .next t ∧ t.regF 0x20010 15 0 = s.regF 0x20010 15 0 - 1 ∧
        t.regF 0x18 31 16 = s.regF 0x20010 15 0 - 1 ∧ keeps t) ∧
    (∀ v : Word, s.srcKeel src = true → bits v 11 11 = 0 → bits v 31 13 = 0 → bit v 12 = false →
      (s.nv.otp.cycle = 0 → counted (.fcInject src v) (bits v 10 0) (BitVec.ofNat 32 (bits v 63 32))) ∧
      (s.nv.otp.cycle ≠ 0 → exec (.fcInject src v) s = .next s) ∧
      (0x400 ≤ bits v 10 0 → counted (.fcRaise src v) (bits v 10 0) (BitVec.ofNat 32 (bits v 63 32))) ∧
      (bits v 10 0 < 0x400 → exec (.fcRaise src v) s = .next s)) ∧
    (∀ (n : Fin 2048) (v : Word), s.srcKeel src = true → ∃ t, exec (.fcSrcCfgWrite src n v) s = .next t ∧
      t.reg (0x24000 + 8 * n.val) = BitVec.ofNat 64 (clampSrcCfg n.val v.toNat) ∧
      (∀ o, o ≠ 0x24000 + 8 * n.val → t.reg o = s.reg o) ∧ keeps t) ∧
    (∀ (n : Fin 2048) (pass : Bool) (exp : Expander) (peer : CwyPeer) k u f, s.pwr.phase = .running → unitOf n.val = some (k, u) →
      s.std.fenced.find? (fun f => decide (f.1 = k ∧ f.2.1 = u)) = some f → k ∈ [.twin, .pcie, .flx, .chEng, .cmp, .cip] →
      let mx := s.regF (0x20100 + 8 * f.2.2) 23 16
      let key := k.code * 1024 + u
      mx = 0 ∨ s.std.readmits.get key 0 < mx →
      (pass = true → ∃ t, exec (.fenceQuietExpiry n pass exp peer) s = .next t ∧ t.isFenced k u = false ∧ bit (t.reg 0x20) 2 = true ∧
        t.std.readmits.get key 0 = s.std.readmits.get key 0 + 1 ∧ t.regF 0x20028 7 0 = (h + 1) % 256 ∧
        t.regF (0x21000 + 16 * h) 15 12 = 5) ∧
      (pass = false → k ≠ .twin → ∃ t, exec (.fenceQuietExpiry n pass exp peer) s = .next t ∧ t.std.fenced = s.std.fenced ∧
        t.regF 0x20028 7 0 = (h + 1) % 256 ∧ t.regF (0x21000 + 16 * h) 15 12 = 6 ∧ keeps t)) ∧
    (∀ c0 c1 c2 c3 hub ls : Int, s.islandsOn = true →
      let l := [c0, c1, c2, c3, hub, ls].map Int.toNat
      let hot := (l.take 5).foldl max 0
      (hot < 125 → ∃ t, exec (.thermUpdate c0 c1 c2 c3 hub ls) s = .next t ∧
        (∀ k, k < 6 → t.regF 0x38 (8 * k + 7) (8 * k) = min 255 (l.getD k 0)) ∧ t.regF 0x38 63 48 = s.regF 0x38 63 48 ∧
        ((∃ k, k < 6 ∧ s.warns k (min 255 (l.getD k 0)) = true) → bit (t.reg 0x20) 4 = true) ∧
        (hot < 115 → keeps t ∧ t.pwr.phase = s.pwr.phase) ∧
        (115 ≤ hot → s.std.thermtrip = false → s.pwr.phase = .running → held t ∧ t.std.thermtrip = true))) ∧
    (∀ c0 c1 c2 c3 hub : Nat, s.islandsOn = true →
      (∃ t, exec (.powerUpdate c0 c1 c2 c3 hub) s = .next t ∧ keeps t ∧
        (∀ k, k < 5 → t.regF 0x30 (12 * k + 11) (12 * k) = min 4095 ([c0, c1, c2, c3, hub].getD k 0)) ∧
        (1100 < (([c0, c1, c2, c3, hub].map (min 4095)).sum) → t.pwr.overRow = s.pwr.overRow + 1 ∧
          (4 ≤ s.pwr.overRow → bit (t.reg 0x20) 5 = true)) ∧
        ((([c0, c1, c2, c3, hub].map (min 4095)).sum) ≤ 1100 → t.pwr.overRow = 0)))

/-- R46, R617 to R631, R634, R636, R637, R641 to R643: a watch period ends at its boundaries and its record is dumped; a written
record, once its homes have accepted it (R304), advances the ring; selections and the ring are set; a carried counter raises its source; lane clocks follow their rail's
voltage, and the PMBus's faults are reported. (The readings of logs 24 and 37; lane clocks at power-up, log 22.) -/
def Obligations.TallyPeriodsAndLaneClocks : Prop :=
  ∀ (s : State) (src : Src), s.tidy = true →
    let keeps (t : State) : Prop := t.mem = s.mem ∧ t.live.lps = s.live.lps ∧ t.nv = s.nv
    let run : Prop := s.pwr.phase = .running
    let ends (i : Instr) (flags : Nat) (f : State → Prop) : Prop := ∃ t, exec i s = .next t ∧ t.live.tallySeq = s.live.tallySeq + 1 ∧
      t.live.tallyStart = s.live.time ∧ t.live.xlatched = s.live.stats ∧ t.live.changed = [] ∧ f t ∧
      (s.ringValid = false → t.live.tally = [] ∧ bit (t.evt 132) 1 = true ∧ t.vol.dumps = s.vol.dumps ∧ keeps t) ∧
      (∀ x, s.ringValid = true → s.vol.dumps = [x] → t.live.tally = [] ∧ keeps t ∧
        t.vol.dumps = [x, (0, s.tallyRecord flags s.live.time)])
    let h := s.regF 0x50020 15 0
    (run → s.live.tallySeq = 0 ∨ s.live.time ≠ s.live.tallyStart →
      ends .watchBoundary 0 (fun _ => True) ∧
      (s.srcKeel src = true → ends (.snap src) 1 (fun _ => True) ∧
        ∀ v : BitVec 24, ends (.watchUsWrite src v) 2 (fun t => t.regF 0x50000 23 0 = clampWatch v.toNat))) ∧
    (∀ base d u, run → s.vol.dumps = [(base, d)] → s.ringCount ≤ 65536 →
      writeRecordLines s ((if base % 2 = 1 then [zeroLine base d] else []) ++ ((List.range 31).map (fun i => (base / 256 + i + 1, (d.drop (256 * (i + 1))).take 256))) ++
        [(base / 256, d.take 256)]) = .ok () u →
      s.vol.dumpSent = false → (s.noteHeld u (2 ^ 22)).accepted (2 ^ 22) = true →
      ∃ t, exec .dumpComplete s = .next t ∧ t.vol.dumps = [] ∧ t.mem = u.mem ∧ bit (t.evt 132) 1 = true ∧
        t.regF 0x50020 15 0 = (if s.ringCount ≤ h + 1 then 0 else h + 1) ∧ t.regF 0x50020 63 16 = leNat (d.take 8) % 2 ^ 48) ∧
    (s.vol.dumpSent = true → s.accepted (2 ^ 22) = false → exec .dumpComplete s = .next s) ∧
    (∀ (i : Fin 800) (v : Word), s.srcMay src 1 = true → s.counterExists i.val = true → ∃ t, exec (.tallySelWrite src i v) s = .next t ∧
      t.reg (0x51000 + 8 * i.val) = BitVec.ofNat 64 (clampSel i.val v.toNat) ∧ t.live.changed.get i.val false = true ∧
      t.live.tally = s.live.tally ∧ keeps t) ∧
    (∀ v : Word, s.srcKeel src = true →
      (∃ t, exec (.tallyRingWrite src false v) s = .next t ∧ bit (t.reg 0x50010) 0 = bit v 0 ∧ t.regF 0x50010 51 13 = bits v 51 13 ∧
        t.regF 0x50020 15 0 = 0 ∧ keeps t) ∧
      (∃ t, exec (.tallyRingWrite src true v) s = .next t ∧ t.regF 0x50018 16 0 = clampRingCount (bits v 16 0) ∧
        t.regF 0x50020 15 0 = 0 ∧ keeps t)) ∧
    (∀ (lp : LpId) (k : Fin 8), (lp.val, k.val) ∈ s.vol.sampleDue →
      let n := s.regF (0x51000 + 8 * (8 * lp.val + k.val)) 27 16
      ∃ t, exec (.sampleCarry lp k) s = .next t ∧ t.vol.sampleDue = s.vol.sampleDue.erase (lp.val, k.val) ∧ keeps t ∧
        (512 ≤ n → bit (t.evt n) 1 = true) ∧ (n < 512 → t.live = s.live)) ∧
    (s.pwr.lanes.sorted = true → s.pwr.rails.sorted = true →
      (∀ (twin : Fin 64) (mhz : Nat), s.srcKeel src = true → run →
        let d := twin.val / 16
        let w := min mhz 5400
        let l := s.lane twin.val
        ∃ t, exec (.laneClockSet src twin mhz) s = .next t ∧ (t.lane twin.val).1 = w ∧ keeps t ∧
          ((s.rail d).ulinear = true → (t.rail d).command = t.railTarget d) ∧
          ((s.rail d).ulinear = false → t.rail d = s.rail d) ∧
          (∀ n, n ≠ twin.val → t.lane n = s.lane n) ∧
          (w ≤ l.2 → (t.lane twin.val).2 = w) ∧
          (l.2 < w → (s.rail d).ulinear = true → (s.rail d).read + 5 < t.railTarget d → (t.lane twin.val).2 = l.2) ∧
          (l.2 < w → t.railTarget d ≤ (s.rail d).read + 5 → (t.lane twin.val).2 = max l.2 (min w (laneLimit (s.rail d).read)))) ∧
      (∀ (die : Fin 4) (mv : Nat), s.islandsOn = true → ∃ t, exec (.voutPoll die mv) s = .next t ∧ (t.rail die.val).read = mv ∧ keeps t ∧
        (∀ k, k < 16 → t.lane (16 * die.val + k) =
          ((s.lane (16 * die.val + k)).1, min (s.lane (16 * die.val + k)).1 (laneLimit mv))) ∧
        ((s.rail die.val).ulinear = true → (s.rail die.val).late = false → mv + 5 < (s.rail die.val).command →
          (∃ k, k < 16 ∧ (s.lane (16 * die.val + k)).2 < (s.lane (16 * die.val + k)).1) →
          (t.rail die.val).late = true ∧ ∃ x, t.std.reports = s.std.reports ++ [(0x214, x)])) ∧
      (∀ (die : Fin 4), run → (s.rail die.val).ulinear = true → ∃ t, exec (.pmbusArbitrationRetry die) s = .next t ∧
        (t.rail die.val).command = s.railTarget die.val ∧ t.pwr.lanes = s.pwr.lanes ∧ keeps t)) ∧
    (∀ (die : Fin 4) (status : BitVec 16), s.std.pwrgood = true →
      (∃ t x, exec (.pmbusAlert die status) s = .next t ∧ t.std.reports = s.std.reports ++ [(0x214, x)] ∧ keeps t) ∧
      (∃ t x, exec (.pmbusTimeout die) s = .next t ∧ t.std.reports = s.std.reports ++ [(0x214, x)] ∧ keeps t))

/-- R16, R18, R20, R33, R35, R545, R654 to R657: a read clears the register's read-to-clear field; a write leaves what the access
codes give; an access of no register changes nothing; the service port's address register, statuses, data and dynamic address; the
probe's accesses at the level that opens them, and none at a closed one. (The readings of logs 38 and 39.) -/
def Obligations.RegistersServicePortAndProbe : Prop :=
  ∀ (s : State), s.tidy = true →
    let p := s.std.svc
    let keeps (t : State) : Prop := t.mem = s.mem ∧ t.live.lps = s.live.lps ∧ t.nv = s.nv
    let svc (i : Instr) (q : Svc) : Prop := exec i s = .next { s with std := { s.std with svc := q } }
    (∀ (src : Src) (off : BitVec 32) (v : Word), s.busMay src off.toNat = true →
      let o := off.toNat
      (s.regExists o = false → exec (.registerWrite src off v) s = .next s ∧ exec (.rcRead src off) s = .next s) ∧
      (s.regExists o = true →
        (o = 0x400038 → ∃ t, exec (.rcRead src off) s = .next t ∧ t.regF o 45 23 = 0 ∧ t.regF o 63 46 = s.regF o 63 46 ∧ keeps t) ∧
        (∀ e, e < 16 → o = 0xC10010 + e * 0x1000 → ∃ t, exec (.rcRead src off) s = .next t ∧ t.regF o 6 5 = 0 ∧
          t.regF o 4 0 = s.regF o 4 0 ∧ keeps t) ∧
        (∀ n : LpId, o = 0x80000 + n.val * 0x1000 → exec (.rcRead src off) s = .next (s.setLp n { s.lp n with order := 0 })) ∧
        (o < 0x80000 → exec (.rcRead src off) s = .next s) ∧
        (∀ r, regInfo o = some r → o < 0x10000 ∨ (0x60000 ≤ o ∧ o < 0x68000) →
          ∃ t, exec (.registerWrite src off v) s = .next t ∧ t.reg o = writeValue r (s.srcKeel src) (s.reg o) v ∧
            (∀ k, k ≠ o → t.reg k = s.reg k) ∧ keeps t))) ∧
    (∀ (off : BitVec 32) (v : Word) (count : Nat) (a : BitVec 7), s.std.standby = true →
      (off.toNat % 8 = 0 → svc (.svcSetAddr off) { p with op := 3, status := 0, data := 0, addr := off }) ∧
      (off.toNat % 8 ≠ 0 → svc (.svcSetAddr off) { p with op := 3, status := 4, data := 0 }) ∧
      (let st := s.svcReadStatus p.addr.toNat
       (st = 0 → svc .svcRead { p with op := 1, status := 0, data := s.regValue .service p.addr.toNat, addr := p.addr + 8 }) ∧
       (st ≠ 0 → svc .svcRead { p with op := 1, status := st, data := 0 })) ∧
      (let st := s.svcWriteStatus p.addr.toNat
       (st ≠ 0 → svc (.svcWrite v) { p with op := 2, status := st, data := 0 }) ∧
       (st = 0 → ∃ t, exec (.svcWrite v) s = .next t ∧ t.std.svc = { p with op := 2, status := 0, data := 0, addr := p.addr + 8 } ∧
         (p.addr = 0x30010 → t.regF 0x30010 39 0 = bits v 39 0 ∧ bit (t.reg 0x30010) 63 = bit v 63) ∧
         (p.addr = 0x40008 → s.regF 0x40008 1 0 = 0 → bits v 1 0 = 2 → t.regF 0x40008 1 0 = 2))) ∧
      (p.op = 1 → svc (.svcPrivateRead 9) { p with op := 0, out := p.status :: wordBytes p.data }) ∧
      (p.op = 2 ∨ p.op = 3 → svc (.svcPrivateRead 1) { p with op := 0, out := [p.status] }) ∧
      (count ≠ (if p.op = 1 then 9 else if p.op = 0 then 0 else 1) → 0 < count →
        svc (.svcPrivateRead count) { p with op := 0, out := 4 :: List.replicate (count - 1) 0 }) ∧
      (p.dyn = none → svc (.setdasa a) { p with dyn := some a } ∧ svc (.entdaa a) { p with dyn := some a }) ∧
      (p.dyn ≠ none → exec (.setdasa a) s = .next s ∧ exec (.entdaa a) s = .next s)) ∧
    exec .tapReset s = .next { s with std := { s.std with tap := none } } ∧
    (∀ (lp : LpId) (k : Fin 8) (r : Reg) (off : BitVec 32) (a : BitVec 52) (v : Word) (b : Byte), s.std.standby = true →
      let taps (acc : Probe) (w : Word) : Prop := exec (.jtagProbeAccess acc) s = .next { s with std := { s.std with tap := some w } }
      let quiet (acc : Probe) : Prop := exec (.jtagProbeAccess acc) s = .next s
      taps .idcode s.idcode ∧ taps .bypass 0 ∧
      (s.probeSlip lp k = true → taps (.readG lp k r) ((s.slipN lp k).g.get r) ∧ taps (.readF lp k r) ((s.slipN lp k).f.get r)) ∧
      (s.probeFull = true → lp.val < s.lpCount →
        (∃ t, exec (.jtagProbeAccess (.writeG lp k r v)) s = .next t ∧ (t.slipN lp k).g = (s.slipN lp k).g.set r.val v r.isLt ∧
          (t.slipN lp k).pc = (s.slipN lp k).pc ∧ (∀ m, m ≠ lp → t.lp m = s.lp m) ∧ t.mem = s.mem) ∧
        (∀ u, s.writeAbs 999 a.toNat [b] = .ok () u → exec (.jtagProbeAccess (.writeMem a b)) s = .next u) ∧
        (∀ d u, s.readAbs a.toNat 1 = .ok (d, .good) u → exec (.jtagProbeAccess (.readMem a)) s = .next (u.setTap (some (leWord d))))) ∧
      (s.debug = 0 → quiet (.readCtl off) ∧ quiet (.writeCtl off v) ∧ quiet (.readMem a) ∧ quiet (.writeMem a b) ∧
        quiet (.readG lp k r) ∧ quiet (.writeG lp k r v) ∧ quiet (.readF lp k r) ∧ quiet (.writeF lp k r v) ∧
        quiet .samplePreload ∧ quiet .extest))

/-! ## Encodings, steps, reset, invariants -/

/-- R82 to R84, R97, R98, R99, R101, R111, R133: a few words written out from the encoding tables decode to the instruction they
stand for, and words with a reserved major opcode, a reserved function, a must-be-zero bit set or an operand not admitted to none.
-/
def Obligations.WordsDecodeToTheirInstruction : Prop :=
  ∀ (lp : LpId) (w : BitVec 32),
    decodeWords lp 0b00000000001000100001100000000000#32 w = some (.add lp 1 2 3) ∧
    decodeWords lp 0b00000100001000100001100000000100#32 w = some (.div lp 1 2 3) ∧
    decodeWords lp 0b00100000001000101111111111111111#32 w = some (.addi lp 1 2 (.short 0xFFFF)) ∧
    decodeWords lp 0b10100000001000100000000000000000#32 w = some (.addi lp 1 2 (.long w)) ∧
    decodeWords lp 0b01001100001000100001100000000000#32 w = some (.ldd lp 1 2 1 (.short 0x800)) ∧
    decodeWords lp 0b10000100001111111111111111111111#32 w = some (.bz lp 1 0x1FFFFF) ∧
    decodeWords lp 0b00010000001000100011100000110011#32 w = some (.aadd lp 1 2 7 true) ∧
    decodeWords lp 0b00011000000000000000000000000101#32 w = some (.fence lp) ∧
    decodeWords lp 0b00000000001000100001100000010110#32 w = none ∧
    decodeWords lp 0b00011000000000000000000001000101#32 w = none ∧
    decodeWords lp 0b01110000001000100000000000000000#32 w = none ∧
    decodeWords lp 0b11111100000000000000000000000000#32 w = none

/-- R81 to R86, R97, R98: the words of every well-formed instruction decode to that instruction, whatever follows them; and words
that decode to an instruction are that instruction's words, two where the first has a long form's major opcode, else one. -/
def Obligations.EncodedInstructionsDecodeToThemselves : Prop :=
  (∀ (i : Instr) (w : BitVec 32), i.wf = true → encode i ≠ [] → (∀ lp v b, i ≠ .forerunnerInstruction lp v b) →
    (∀ lp v b, i = .customInstruction lp v b → b = 0) →
    ∃ lp, decodeWords lp ((encode i).getD 0 0) ((encode i).getD 1 w) = some i) ∧
  (∀ (lp : LpId) (w0 w1 : BitVec 32) (i : Instr), decodeWords lp w0 w1 = some i →
    i.wf = true ∧ encode i = if isLong w0 then [w0, w1] else [w0])

/-- A step takes the command at the front of the queue and is its effect on the state with the rest of the queue; on an empty queue
one nanosecond passes, and a management command that waits for memory is tried again (log 2). -/
def Obligations.StepsTakeTheFrontCommand : Prop :=
  ∀ (s : State) (c : Instr) (r : List Instr),
    step { s with pending := c :: r } = exec c { s with pending := r } ∧
    step { s with pending := [] } = .next { s with pending := [] }.idle ∧
    (s.std.standby = true → s.vol.mfWait = none → s.vol.flxWait = none →
      s.idle.live = (if s.timeRuns then { s.live with time := s.live.time + 1 } else s.live) ∧
      s.idle.std = { s.std with clock := s.std.clock + 1 } ∧ s.idle.mem = s.mem ∧
      s.idle.vol = s.vol ∧ s.idle.nv = s.nv ∧ s.idle.pwr = s.pwr ∧ s.idle.pending = s.pending) ∧
    (s.std.standby = true → s.std.pwrgood = true → s.pwr.phase = .running → s.pwr.unbroken = true → s.timeRuns = true)

/-- R16, R41, R554, R640: right after reset the standby domain is up and the main domain off, POWER_STATE reads OFF, a register
reads what its block's table gives, no copy, no queued command and no fence exists, and the canonical forms hold. (A blank OTP, life
cycle FACTORY, part and stepping, registers without a stated value and empty memory are the model's choices, logs 3 and 4.) -/
def Obligations.ResetIsTheStandbyDomainJustUp : Prop :=
  let s := State.reset
  s.powerState = 5 ∧ s.pwr.phase = .off ∧ s.std.standby = true ∧ s.std.pwrgood = false ∧ s.pending = [] ∧ s.harbour = false ∧
  s.debug = 0 ∧ s.nv.otp.cycle = 0 ∧ s.mem.cur = [] ∧ s.vol.caches.dir = [] ∧ s.std.fenced = [] ∧ s.live.time = 0 ∧
  s.regF 0x38 55 48 = 0x5F ∧ s.regF 0x20008 15 0 = 1000 ∧ s.regF 0x20008 23 16 = 8 ∧ s.reg 0x60000 = 0x10 ∧
  s.tidy = true ∧ ∀ o, o ≠ 0x18 → s.reg o = resetReg o

/-- Every step keeps the canonical forms: memory and the landing store list rising addresses and no zero byte, and the registers,
copies, queues, journal, crossings, park areas and landed images list each key once, in rising order. -/
def Obligations.EveryStepKeepsTheCanonicalForms : Prop :=
  ∀ s t : State, s.tidy = true → step s = .next t → t.tidy = true
end

