-- ==== Sys2Proof/Laws/Map.lean ====
section
/-! SUPPORT. Sparse tables and memory: what reading after writing gives, and that every operation keeps the canonical form. -/

namespace Sys2Proof.Machine

/-! ## Sparse tables -/

/-- In a table with rising keys every key after the first is larger. -/
theorem map_sorted_cons {α : Type} {k : Nat} {v : α} {r : Map α} (h : Map.sorted ((k, v) :: r) = true) :
    Map.sorted r = true ∧ ∀ e ∈ r, k < e.1 := by
  induction r generalizing k v with
  | nil => exact ⟨rfl, by simp⟩
  | cons e r ih =>
    obtain ⟨k', v'⟩ := e
    simp only [Map.sorted, Bool.and_eq_true, decide_eq_true_eq] at h
    obtain ⟨hk, hs⟩ := h
    have hs' : Map.sorted ((k', v') :: r) = true := by simpa [Map.sorted] using hs
    refine ⟨hs', ?_⟩
    intro e he
    rcases List.mem_cons.mp he with h1 | h1
    · simpa [h1] using hk
    · exact Nat.lt_trans hk ((ih hs').2 e h1)

/-- A first entry below every other key keeps the keys rising. -/
theorem map_sorted_of_cons {α : Type} {k : Nat} {v : α} {r : Map α} (hs : Map.sorted r = true) (hk : ∀ e ∈ r, k < e.1) :
    Map.sorted ((k, v) :: r) = true := by
  cases r with
  | nil => rfl
  | cons e r =>
    obtain ⟨k', v'⟩ := e
    simp only [Map.sorted, Bool.and_eq_true, decide_eq_true_eq]
    exact ⟨hk _ (List.mem_cons_self ..), by simpa [Map.sorted] using hs⟩

/-- What is left after an erasure was there before. -/
theorem map_mem_erase {α : Type} {m : Map α} {k : Nat} {e : Nat × α} (h : e ∈ m.erase k) : e ∈ m := by
  induction m with
  | nil => simp [Map.erase] at h
  | cons x r ih =>
    obtain ⟨k', v'⟩ := x
    simp only [Map.erase] at h
    split at h
    · exact List.mem_cons_of_mem _ h
    · rcases List.mem_cons.mp h with h1 | h1
      · simp [h1]
      · exact List.mem_cons_of_mem _ (ih h1)

/-- What is there after an insertion is the new entry or was there before. -/
theorem map_mem_insert {α : Type} {m : Map α} {k : Nat} {v : α} {e : Nat × α} (h : e ∈ m.insert k v) : e = (k, v) ∨ e ∈ m := by
  induction m with
  | nil => simpa [Map.insert] using h
  | cons x r ih =>
    obtain ⟨k', v'⟩ := x
    simp only [Map.insert] at h
    split at h
    · simpa using h
    · split at h
      · rcases List.mem_cons.mp h with h1 | h1
        · exact .inl h1
        · exact .inr (List.mem_cons_of_mem _ h1)
      · rcases List.mem_cons.mp h with h1 | h1
        · exact .inr (by simp [h1])
        · exact (ih h1).imp id (List.mem_cons_of_mem _)

theorem map_sorted_erase {α : Type} {m : Map α} (h : m.sorted = true) (k : Nat) : (m.erase k).sorted = true := by
  induction m with
  | nil => rfl
  | cons x r ih =>
    obtain ⟨k', v'⟩ := x
    obtain ⟨hs, hk⟩ := map_sorted_cons h
    simp only [Map.erase]
    split
    · exact hs
    · exact map_sorted_of_cons (ih hs) (fun e he => hk e (map_mem_erase he))

theorem map_sorted_insert {α : Type} {m : Map α} (h : m.sorted = true) (k : Nat) (v : α) : (m.insert k v).sorted = true := by
  induction m with
  | nil => rfl
  | cons x r ih =>
    obtain ⟨k', v'⟩ := x
    obtain ⟨hs, hk⟩ := map_sorted_cons h
    simp only [Map.insert]
    split
    · rename_i hlt
      refine map_sorted_of_cons h ?_
      intro e he
      rcases List.mem_cons.mp he with h1 | h1
      · simpa [h1] using hlt
      · exact Nat.lt_trans hlt (hk e h1)
    · split
      · rename_i heq
        exact map_sorted_of_cons hs (fun e he => heq ▸ hk e he)
      · rename_i h1 h2
        refine map_sorted_of_cons (ih hs) ?_
        intro e he
        rcases map_mem_insert he with h3 | h3
        · subst h3; show k' < k; omega
        · exact hk e h3

theorem map_sorted_put {α : Type} [DecidableEq α] {m : Map α} (h : m.sorted = true) (k : Nat) (v d : α) :
    (m.put k v d).sorted = true := by
  unfold Map.put
  split
  · exact map_sorted_erase h k
  · exact map_sorted_insert h k v

/-- A table keeps rising keys when some of its entries go. -/
theorem map_sorted_filter {α : Type} {m : Map α} (h : m.sorted = true) (p : Nat × α → Bool) :
    Map.sorted (List.filter p m) = true := by
  induction m with
  | nil => rfl
  | cons x r ih =>
    obtain ⟨k', v'⟩ := x
    obtain ⟨hs, hk⟩ := map_sorted_cons h
    simp only [List.filter]
    split
    · exact map_sorted_of_cons (ih hs) (fun e he => hk e (List.mem_filter.mp he).1)
    · exact ih hs

theorem map_get_insert_self {α : Type} (m : Map α) (k : Nat) (v d : α) : (m.insert k v).get k d = v := by
  induction m with
  | nil => simp [Map.insert, Map.get]
  | cons x r ih =>
    obtain ⟨k', v'⟩ := x
    simp only [Map.insert]
    split
    · simp [Map.get]
    · split
      · simp [Map.get]
      · rename_i h1 h2
        simp only [Map.get, if_neg (fun h : k' = k => h2 h.symm), ih]

theorem map_get_insert_ne {α : Type} (m : Map α) {k j : Nat} (h : j ≠ k) (v d : α) : (m.insert k v).get j d = m.get j d := by
  induction m with
  | nil => simp [Map.insert, Map.get, Ne.symm h]
  | cons x r ih =>
    obtain ⟨k', v'⟩ := x
    simp only [Map.insert]
    split
    · simp [Map.get, Ne.symm h]
    · split
      · rename_i h1 h2
        subst h2
        simp [Map.get, Ne.symm h]
      · simp only [Map.get, ih]

/-- A key below or absent from every entry reads as the default. -/
theorem map_get_absent {α : Type} {m : Map α} {k : Nat} (h : ∀ e ∈ m, e.1 ≠ k) (d : α) : m.get k d = d := by
  induction m with
  | nil => rfl
  | cons x r ih =>
    obtain ⟨k', v'⟩ := x
    have h1 : k' ≠ k := h (k', v') (List.mem_cons_self ..)
    simp only [Map.get, if_neg h1]
    exact ih (fun e he => h e (List.mem_cons_of_mem _ he))

theorem map_get_erase_self {α : Type} {m : Map α} (h : m.sorted = true) (k : Nat) (d : α) : (m.erase k).get k d = d := by
  induction m with
  | nil => rfl
  | cons x r ih =>
    obtain ⟨k', v'⟩ := x
    obtain ⟨hs, hk⟩ := map_sorted_cons h
    simp only [Map.erase]
    split
    · rename_i heq
      exact map_get_absent (fun e he => by have := hk e he; omega) d
    · rename_i hne
      simp only [Map.get, if_neg hne, ih hs]

theorem map_get_erase_ne {α : Type} (m : Map α) {k j : Nat} (h : j ≠ k) (d : α) : (m.erase k).get j d = m.get j d := by
  induction m with
  | nil => rfl
  | cons x r ih =>
    obtain ⟨k', v'⟩ := x
    simp only [Map.erase]
    split
    · rename_i heq
      subst heq
      simp [Map.get, Ne.symm h]
    · simp only [Map.get, ih]

/-- A key reads as what was put there. -/
theorem map_get_put_self {α : Type} [DecidableEq α] {m : Map α} (h : m.sorted = true) (k : Nat) (v d : α) :
    (m.put k v d).get k d = v := by
  unfold Map.put
  split
  · rename_i hv
    rw [map_get_erase_self h, hv]
  · exact map_get_insert_self m k v d

/-- Every other key reads as before. -/
theorem map_get_put_ne {α : Type} [DecidableEq α] (m : Map α) {k j : Nat} (h : j ≠ k) (v d e : α) :
    (m.put k v d).get j e = m.get j e := by
  unfold Map.put
  split
  · exact map_get_erase_ne m h e
  · exact map_get_insert_ne m h v e

theorem map_wf_iff {α : Type} [DecidableEq α] {m : Map α} {d : α} :
    m.wf d = true ↔ m.sorted = true ∧ ∀ e ∈ m, e.2 ≠ d := by
  simp [Map.wf]

/-- A put keeps the canonical form. -/
theorem map_wf_put {α : Type} [DecidableEq α] {m : Map α} {d : α} (h : m.wf d = true) (k : Nat) (v : α) :
    (m.put k v d).wf d = true := by
  rw [map_wf_iff] at h ⊢
  refine ⟨map_sorted_put h.1 k v d, ?_⟩
  intro e he
  unfold Map.put at he
  split at he
  · exact h.2 e (map_mem_erase he)
  · rename_i hv
    rcases map_mem_insert he with h1 | h1
    · rw [h1]; exact hv
    · exact h.2 e h1

theorem map_wf_filter {α : Type} [DecidableEq α] {m : Map α} {d : α} (h : m.wf d = true) (p : Nat × α → Bool) :
    Map.wf (List.filter p m) d = true := by
  rw [map_wf_iff] at h ⊢
  exact ⟨map_sorted_filter h.1 p, fun e he => h.2 e (List.mem_filter.mp he).1⟩

/-! ## Memory -/

theorem memory_sorted {m : Memory} (h : m.wf = true) : Map.sorted m = true := (map_wf_iff.mp h).1

/-- Writing a byte keeps the canonical form. -/
theorem memory_wf_setByte {m : Memory} (h : m.wf = true) (a : Nat) (v : Byte) : (m.setByte a v).wf = true := map_wf_put h a v

/-- Writing bytes keeps the canonical form. -/
theorem memory_wf_setBytes {m : Memory} (h : m.wf = true) (a : Nat) (l : List Byte) : (m.setBytes a l).wf = true := by
  induction l generalizing m a with
  | nil => exact h
  | cons v r ih => exact ih (memory_wf_setByte h a v) (a + 1)

/-- A byte reads as written. -/
theorem memory_byte_setByte_self {m : Memory} (h : m.wf = true) (a : Nat) (v : Byte) : (m.setByte a v).byte a = v :=
  map_get_put_self (memory_sorted h) a v 0

/-- Every other byte reads as before. -/
theorem memory_byte_setByte_ne (m : Memory) {a b : Nat} (h : b ≠ a) (v : Byte) : (m.setByte a v).byte b = m.byte b :=
  map_get_put_ne m h v 0 0

/-- Bytes outside the range written read as before. -/
theorem memory_byte_setBytes_out (m : Memory) {a b : Nat} (l : List Byte) (h : b < a ∨ a + l.length ≤ b) :
    (m.setBytes a l).byte b = m.byte b := by
  induction l generalizing m a with
  | nil => rfl
  | cons v r ih =>
    simp only [List.length_cons] at h
    show ((m.setByte a v).setBytes (a + 1) r).byte b = m.byte b
    rw [ih (m.setByte a v) (a := a + 1) (by omega), memory_byte_setByte_ne m (by omega)]

/-- Bytes in the range written read as written. -/
theorem memory_byte_setBytes_in {m : Memory} (hm : m.wf = true) {a i : Nat} {l : List Byte} (h : i < l.length) :
    (m.setBytes a l).byte (a + i) = l.getD i 0 := by
  induction l generalizing m a i with
  | nil => simp at h
  | cons v r ih =>
    show ((m.setByte a v).setBytes (a + 1) r).byte (a + i) = (v :: r).getD i 0
    cases i with
    | zero =>
      rw [memory_byte_setBytes_out _ r (by omega), Nat.add_zero, memory_byte_setByte_self hm]
      rfl
    | succ i =>
      have := ih (memory_wf_setByte hm a v) (a := a + 1) (i := i) (by simpa using h)
      rw [show a + (i + 1) = a + 1 + i by omega, this]
      rfl

end Sys2Proof.Machine
end

