-- ==== Sys2Proof/Laws/State.lean ====
section
/-! SUPPORT. One lemma per field per update of State. -/

namespace Sys2Proof.Machine

@[simp] theorem setLp_mem (s : State) (n : LpId) (l : Lp) : (s.setLp n l).mem = s.mem := rfl
@[simp] theorem setLp_nv (s : State) (n : LpId) (l : Lp) : (s.setLp n l).nv = s.nv := rfl
@[simp] theorem setLp_std (s : State) (n : LpId) (l : Lp) : (s.setLp n l).std = s.std := rfl
@[simp] theorem setLp_pwr (s : State) (n : LpId) (l : Lp) : (s.setLp n l).pwr = s.pwr := rfl
@[simp] theorem setLp_pending (s : State) (n : LpId) (l : Lp) : (s.setLp n l).pending = s.pending := rfl
@[simp] theorem setLp_free (s : State) (n : LpId) (l : Lp) : (s.setLp n l).free = s.free := rfl
@[simp] theorem setLp_live_regs (s : State) (n : LpId) (l : Lp) : (s.setLp n l).live.regs = s.live.regs := rfl
@[simp] theorem setLp_live_time (s : State) (n : LpId) (l : Lp) : (s.setLp n l).live.time = s.live.time := rfl
@[simp] theorem setLp_live_sets (s : State) (n : LpId) (l : Lp) : (s.setLp n l).live.sets = s.live.sets := rfl
@[simp] theorem setLp_live_plan (s : State) (n : LpId) (l : Lp) : (s.setLp n l).live.plan = s.live.plan := rfl
@[simp] theorem setLp_vol_caches (s : State) (n : LpId) (l : Lp) : (s.setLp n l).vol.caches = s.vol.caches := rfl
@[simp] theorem setLp_vol_store (s : State) (n : LpId) (l : Lp) : (s.setLp n l).vol.store = s.vol.store := rfl

@[simp] theorem setLpv_mem (s : State) (n : LpId) (v : LpVol) : (s.setLpv n v).mem = s.mem := rfl
@[simp] theorem setLpv_nv (s : State) (n : LpId) (v : LpVol) : (s.setLpv n v).nv = s.nv := rfl
@[simp] theorem setLpv_std (s : State) (n : LpId) (v : LpVol) : (s.setLpv n v).std = s.std := rfl
@[simp] theorem setLpv_pwr (s : State) (n : LpId) (v : LpVol) : (s.setLpv n v).pwr = s.pwr := rfl
@[simp] theorem setLpv_pending (s : State) (n : LpId) (v : LpVol) : (s.setLpv n v).pending = s.pending := rfl
@[simp] theorem setLpv_free (s : State) (n : LpId) (v : LpVol) : (s.setLpv n v).free = s.free := rfl
@[simp] theorem setLpv_live_regs (s : State) (n : LpId) (v : LpVol) : (s.setLpv n v).live.regs = s.live.regs := rfl
@[simp] theorem setLpv_live_time (s : State) (n : LpId) (v : LpVol) : (s.setLpv n v).live.time = s.live.time := rfl
@[simp] theorem setLpv_live_sets (s : State) (n : LpId) (v : LpVol) : (s.setLpv n v).live.sets = s.live.sets := rfl
@[simp] theorem setLpv_live_plan (s : State) (n : LpId) (v : LpVol) : (s.setLpv n v).live.plan = s.live.plan := rfl
@[simp] theorem setLpv_vol_caches (s : State) (n : LpId) (v : LpVol) : (s.setLpv n v).vol.caches = s.vol.caches := rfl
@[simp] theorem setLpv_vol_store (s : State) (n : LpId) (v : LpVol) : (s.setLpv n v).vol.store = s.vol.store := rfl

@[simp] theorem setSlipN_mem (s : State) (n : LpId) (k : Fin 8) (x : Slip) : (s.setSlipN n k x).mem = s.mem := rfl
@[simp] theorem setSlipN_nv (s : State) (n : LpId) (k : Fin 8) (x : Slip) : (s.setSlipN n k x).nv = s.nv := rfl
@[simp] theorem setSlipN_std (s : State) (n : LpId) (k : Fin 8) (x : Slip) : (s.setSlipN n k x).std = s.std := rfl
@[simp] theorem setSlipN_pwr (s : State) (n : LpId) (k : Fin 8) (x : Slip) : (s.setSlipN n k x).pwr = s.pwr := rfl
@[simp] theorem setSlipN_pending (s : State) (n : LpId) (k : Fin 8) (x : Slip) : (s.setSlipN n k x).pending = s.pending := rfl
@[simp] theorem setSlipN_free (s : State) (n : LpId) (k : Fin 8) (x : Slip) : (s.setSlipN n k x).free = s.free := rfl
@[simp] theorem setSlipN_live_regs (s : State) (n : LpId) (k : Fin 8) (x : Slip) : (s.setSlipN n k x).live.regs = s.live.regs := rfl
@[simp] theorem setSlipN_live_time (s : State) (n : LpId) (k : Fin 8) (x : Slip) : (s.setSlipN n k x).live.time = s.live.time := rfl
@[simp] theorem setSlipN_live_sets (s : State) (n : LpId) (k : Fin 8) (x : Slip) : (s.setSlipN n k x).live.sets = s.live.sets := rfl
@[simp] theorem setSlipN_live_plan (s : State) (n : LpId) (k : Fin 8) (x : Slip) : (s.setSlipN n k x).live.plan = s.live.plan := rfl
@[simp] theorem setSlipN_vol_caches (s : State) (n : LpId) (k : Fin 8) (x : Slip) : (s.setSlipN n k x).vol.caches = s.vol.caches := rfl
@[simp] theorem setSlipN_vol_store (s : State) (n : LpId) (k : Fin 8) (x : Slip) : (s.setSlipN n k x).vol.store = s.vol.store := rfl

@[simp] theorem setSlip_mem (s : State) (n : LpId) (x : Slip) : (s.setSlip n x).mem = s.mem := rfl
@[simp] theorem setSlip_nv (s : State) (n : LpId) (x : Slip) : (s.setSlip n x).nv = s.nv := rfl
@[simp] theorem setSlip_std (s : State) (n : LpId) (x : Slip) : (s.setSlip n x).std = s.std := rfl
@[simp] theorem setSlip_pwr (s : State) (n : LpId) (x : Slip) : (s.setSlip n x).pwr = s.pwr := rfl
@[simp] theorem setSlip_pending (s : State) (n : LpId) (x : Slip) : (s.setSlip n x).pending = s.pending := rfl
@[simp] theorem setSlip_free (s : State) (n : LpId) (x : Slip) : (s.setSlip n x).free = s.free := rfl
@[simp] theorem setSlip_live_regs (s : State) (n : LpId) (x : Slip) : (s.setSlip n x).live.regs = s.live.regs := rfl
@[simp] theorem setSlip_live_time (s : State) (n : LpId) (x : Slip) : (s.setSlip n x).live.time = s.live.time := rfl
@[simp] theorem setSlip_live_sets (s : State) (n : LpId) (x : Slip) : (s.setSlip n x).live.sets = s.live.sets := rfl
@[simp] theorem setSlip_live_plan (s : State) (n : LpId) (x : Slip) : (s.setSlip n x).live.plan = s.live.plan := rfl
@[simp] theorem setSlip_vol_caches (s : State) (n : LpId) (x : Slip) : (s.setSlip n x).vol.caches = s.vol.caches := rfl
@[simp] theorem setSlip_vol_store (s : State) (n : LpId) (x : Slip) : (s.setSlip n x).vol.store = s.vol.store := rfl

@[simp] theorem item_mem (s : State) (n : LpId) (k m : Nat) (w : List Word) : (s.item n k m w).mem = s.mem := rfl
@[simp] theorem item_nv (s : State) (n : LpId) (k m : Nat) (w : List Word) : (s.item n k m w).nv = s.nv := rfl
@[simp] theorem item_std (s : State) (n : LpId) (k m : Nat) (w : List Word) : (s.item n k m w).std = s.std := rfl
@[simp] theorem item_pwr (s : State) (n : LpId) (k m : Nat) (w : List Word) : (s.item n k m w).pwr = s.pwr := rfl
@[simp] theorem item_pending (s : State) (n : LpId) (k m : Nat) (w : List Word) : (s.item n k m w).pending = s.pending := rfl
@[simp] theorem item_free (s : State) (n : LpId) (k m : Nat) (w : List Word) : (s.item n k m w).free = s.free := rfl
@[simp] theorem item_live_regs (s : State) (n : LpId) (k m : Nat) (w : List Word) : (s.item n k m w).live.regs = s.live.regs := rfl
@[simp] theorem item_live_time (s : State) (n : LpId) (k m : Nat) (w : List Word) : (s.item n k m w).live.time = s.live.time := rfl
@[simp] theorem item_live_sets (s : State) (n : LpId) (k m : Nat) (w : List Word) : (s.item n k m w).live.sets = s.live.sets := rfl
@[simp] theorem item_live_plan (s : State) (n : LpId) (k m : Nat) (w : List Word) : (s.item n k m w).live.plan = s.live.plan := rfl
@[simp] theorem item_vol_caches (s : State) (n : LpId) (k m : Nat) (w : List Word) : (s.item n k m w).vol.caches = s.vol.caches := rfl
@[simp] theorem item_vol_store (s : State) (n : LpId) (k m : Nat) (w : List Word) : (s.item n k m w).vol.store = s.vol.store := rfl

@[simp] theorem setG_mem (s : State) (n : LpId) (r : Reg) (v : Word) : (s.setG n r v).mem = s.mem := rfl
@[simp] theorem setG_nv (s : State) (n : LpId) (r : Reg) (v : Word) : (s.setG n r v).nv = s.nv := rfl
@[simp] theorem setG_std (s : State) (n : LpId) (r : Reg) (v : Word) : (s.setG n r v).std = s.std := rfl
@[simp] theorem setG_pwr (s : State) (n : LpId) (r : Reg) (v : Word) : (s.setG n r v).pwr = s.pwr := rfl
@[simp] theorem setG_pending (s : State) (n : LpId) (r : Reg) (v : Word) : (s.setG n r v).pending = s.pending := rfl
@[simp] theorem setG_free (s : State) (n : LpId) (r : Reg) (v : Word) : (s.setG n r v).free = s.free := rfl
@[simp] theorem setG_live_regs (s : State) (n : LpId) (r : Reg) (v : Word) : (s.setG n r v).live.regs = s.live.regs := rfl
@[simp] theorem setG_live_time (s : State) (n : LpId) (r : Reg) (v : Word) : (s.setG n r v).live.time = s.live.time := rfl
@[simp] theorem setG_live_sets (s : State) (n : LpId) (r : Reg) (v : Word) : (s.setG n r v).live.sets = s.live.sets := rfl
@[simp] theorem setG_live_plan (s : State) (n : LpId) (r : Reg) (v : Word) : (s.setG n r v).live.plan = s.live.plan := rfl
@[simp] theorem setG_vol_caches (s : State) (n : LpId) (r : Reg) (v : Word) : (s.setG n r v).vol.caches = s.vol.caches := rfl
@[simp] theorem setG_vol_store (s : State) (n : LpId) (r : Reg) (v : Word) : (s.setG n r v).vol.store = s.vol.store := rfl

@[simp] theorem setF_mem (s : State) (n : LpId) (r : Reg) (v : Word) : (s.setF n r v).mem = s.mem := rfl
@[simp] theorem setF_nv (s : State) (n : LpId) (r : Reg) (v : Word) : (s.setF n r v).nv = s.nv := rfl
@[simp] theorem setF_std (s : State) (n : LpId) (r : Reg) (v : Word) : (s.setF n r v).std = s.std := rfl
@[simp] theorem setF_pwr (s : State) (n : LpId) (r : Reg) (v : Word) : (s.setF n r v).pwr = s.pwr := rfl
@[simp] theorem setF_pending (s : State) (n : LpId) (r : Reg) (v : Word) : (s.setF n r v).pending = s.pending := rfl
@[simp] theorem setF_free (s : State) (n : LpId) (r : Reg) (v : Word) : (s.setF n r v).free = s.free := rfl
@[simp] theorem setF_live_regs (s : State) (n : LpId) (r : Reg) (v : Word) : (s.setF n r v).live.regs = s.live.regs := rfl
@[simp] theorem setF_live_time (s : State) (n : LpId) (r : Reg) (v : Word) : (s.setF n r v).live.time = s.live.time := rfl
@[simp] theorem setF_live_sets (s : State) (n : LpId) (r : Reg) (v : Word) : (s.setF n r v).live.sets = s.live.sets := rfl
@[simp] theorem setF_live_plan (s : State) (n : LpId) (r : Reg) (v : Word) : (s.setF n r v).live.plan = s.live.plan := rfl
@[simp] theorem setF_vol_caches (s : State) (n : LpId) (r : Reg) (v : Word) : (s.setF n r v).vol.caches = s.vol.caches := rfl
@[simp] theorem setF_vol_store (s : State) (n : LpId) (r : Reg) (v : Word) : (s.setF n r v).vol.store = s.vol.store := rfl

@[simp] theorem setB_mem (s : State) (n : LpId) (r : BankNo) (a b : Word) : (s.setB n r a b).mem = s.mem := rfl
@[simp] theorem setB_nv (s : State) (n : LpId) (r : BankNo) (a b : Word) : (s.setB n r a b).nv = s.nv := rfl
@[simp] theorem setB_std (s : State) (n : LpId) (r : BankNo) (a b : Word) : (s.setB n r a b).std = s.std := rfl
@[simp] theorem setB_pwr (s : State) (n : LpId) (r : BankNo) (a b : Word) : (s.setB n r a b).pwr = s.pwr := rfl
@[simp] theorem setB_pending (s : State) (n : LpId) (r : BankNo) (a b : Word) : (s.setB n r a b).pending = s.pending := rfl
@[simp] theorem setB_free (s : State) (n : LpId) (r : BankNo) (a b : Word) : (s.setB n r a b).free = s.free := rfl
@[simp] theorem setB_live_regs (s : State) (n : LpId) (r : BankNo) (a b : Word) : (s.setB n r a b).live.regs = s.live.regs := rfl
@[simp] theorem setB_live_time (s : State) (n : LpId) (r : BankNo) (a b : Word) : (s.setB n r a b).live.time = s.live.time := rfl
@[simp] theorem setB_live_sets (s : State) (n : LpId) (r : BankNo) (a b : Word) : (s.setB n r a b).live.sets = s.live.sets := rfl
@[simp] theorem setB_live_plan (s : State) (n : LpId) (r : BankNo) (a b : Word) : (s.setB n r a b).live.plan = s.live.plan := rfl
@[simp] theorem setB_vol_caches (s : State) (n : LpId) (r : BankNo) (a b : Word) : (s.setB n r a b).vol.caches = s.vol.caches := rfl
@[simp] theorem setB_vol_store (s : State) (n : LpId) (r : BankNo) (a b : Word) : (s.setB n r a b).vol.store = s.vol.store := rfl

@[simp] theorem setU_mem (s : State) (n : LpId) (r : Fin 16) (v : Word) : (s.setU n r v).mem = s.mem := rfl
@[simp] theorem setU_nv (s : State) (n : LpId) (r : Fin 16) (v : Word) : (s.setU n r v).nv = s.nv := rfl
@[simp] theorem setU_std (s : State) (n : LpId) (r : Fin 16) (v : Word) : (s.setU n r v).std = s.std := rfl
@[simp] theorem setU_pwr (s : State) (n : LpId) (r : Fin 16) (v : Word) : (s.setU n r v).pwr = s.pwr := rfl
@[simp] theorem setU_pending (s : State) (n : LpId) (r : Fin 16) (v : Word) : (s.setU n r v).pending = s.pending := rfl
@[simp] theorem setU_free (s : State) (n : LpId) (r : Fin 16) (v : Word) : (s.setU n r v).free = s.free := rfl
@[simp] theorem setU_live_regs (s : State) (n : LpId) (r : Fin 16) (v : Word) : (s.setU n r v).live.regs = s.live.regs := rfl
@[simp] theorem setU_live_time (s : State) (n : LpId) (r : Fin 16) (v : Word) : (s.setU n r v).live.time = s.live.time := rfl
@[simp] theorem setU_live_sets (s : State) (n : LpId) (r : Fin 16) (v : Word) : (s.setU n r v).live.sets = s.live.sets := rfl
@[simp] theorem setU_live_plan (s : State) (n : LpId) (r : Fin 16) (v : Word) : (s.setU n r v).live.plan = s.live.plan := rfl
@[simp] theorem setU_vol_caches (s : State) (n : LpId) (r : Fin 16) (v : Word) : (s.setU n r v).vol.caches = s.vol.caches := rfl
@[simp] theorem setU_vol_store (s : State) (n : LpId) (r : Fin 16) (v : Word) : (s.setU n r v).vol.store = s.vol.store := rfl

@[simp] theorem setPc_mem (s : State) (n : LpId) (v : Word) : (s.setPc n v).mem = s.mem := rfl
@[simp] theorem setPc_nv (s : State) (n : LpId) (v : Word) : (s.setPc n v).nv = s.nv := rfl
@[simp] theorem setPc_std (s : State) (n : LpId) (v : Word) : (s.setPc n v).std = s.std := rfl
@[simp] theorem setPc_pwr (s : State) (n : LpId) (v : Word) : (s.setPc n v).pwr = s.pwr := rfl
@[simp] theorem setPc_pending (s : State) (n : LpId) (v : Word) : (s.setPc n v).pending = s.pending := rfl
@[simp] theorem setPc_free (s : State) (n : LpId) (v : Word) : (s.setPc n v).free = s.free := rfl
@[simp] theorem setPc_live_regs (s : State) (n : LpId) (v : Word) : (s.setPc n v).live.regs = s.live.regs := rfl
@[simp] theorem setPc_live_time (s : State) (n : LpId) (v : Word) : (s.setPc n v).live.time = s.live.time := rfl
@[simp] theorem setPc_live_sets (s : State) (n : LpId) (v : Word) : (s.setPc n v).live.sets = s.live.sets := rfl
@[simp] theorem setPc_live_plan (s : State) (n : LpId) (v : Word) : (s.setPc n v).live.plan = s.live.plan := rfl
@[simp] theorem setPc_vol_caches (s : State) (n : LpId) (v : Word) : (s.setPc n v).vol.caches = s.vol.caches := rfl
@[simp] theorem setPc_vol_store (s : State) (n : LpId) (v : Word) : (s.setPc n v).vol.store = s.vol.store := rfl

/-! ## Processors -/

theorem vget_set {α : Type} {n : Nat} (v : Vector α n) (i j : Fin n) (x : α) :
    (v.set i.val x i.isLt).get j = if i = j then x else v.get j := by
  show (v.set i.val x i.isLt)[j.val] = if i = j then x else v[j.val]
  rw [Vector.getElem_set]
  simp [Fin.ext_iff]

@[simp] theorem lp_setLp (s : State) (n m : LpId) (l : Lp) : (s.setLp n l).lp m = if n = m then l else s.lp m :=
  vget_set _ _ _ _
@[simp] theorem lpv_setLp (s : State) (n m : LpId) (l : Lp) : (s.setLp n l).lpv m = s.lpv m := rfl
@[simp] theorem lp_setLpv (s : State) (n m : LpId) (v : LpVol) : (s.setLpv n v).lp m = s.lp m := rfl
@[simp] theorem lpv_setLpv (s : State) (n m : LpId) (v : LpVol) :
    (s.setLpv n v).lpv m = if n = m then v else s.lpv m := vget_set _ _ _ _
@[simp] theorem lp_item (s : State) (n m : LpId) (k j : Nat) (w : List Word) : (s.item n k j w).lp m = s.lp m := rfl
@[simp] theorem lpv_item (s : State) (n m : LpId) (k j : Nat) (w : List Word) :
    (s.item n k j w).lpv m = if n = m then { s.lpv n with items := (s.lpv n).items ++ [(k, j, w)] } else s.lpv m :=
  lpv_setLpv _ _ _ _
@[simp] theorem lp_setSlipN (s : State) (n m : LpId) (k : Fin 8) (x : Slip) :
    (s.setSlipN n k x).lp m = if n = m then { s.lp n with slips := (s.lp n).slips.set k.val x k.isLt } else s.lp m :=
  lp_setLp _ _ _ _
@[simp] theorem lpv_setSlipN (s : State) (n m : LpId) (k : Fin 8) (x : Slip) : (s.setSlipN n k x).lpv m = s.lpv m := rfl
@[simp] theorem lp_setSlip (s : State) (n m : LpId) (x : Slip) :
    (s.setSlip n x).lp m =
      if n = m then { s.lp n with slips := (s.lp n).slips.set (s.lp n).run.val x (s.lp n).run.isLt } else s.lp m :=
  lp_setLp _ _ _ _
@[simp] theorem lpv_setSlip (s : State) (n m : LpId) (x : Slip) : (s.setSlip n x).lpv m = s.lpv m := rfl
@[simp] theorem lpv_setPc (s : State) (n m : LpId) (v : Word) : (s.setPc n v).lpv m = s.lpv m := rfl

@[simp] theorem slip_setLp (s : State) (n : LpId) (l : Lp) : (s.setLp n l).slip n = l.slips.get l.run := by
  simp [State.slip, State.slipN]
@[simp] theorem slipN_setLp (s : State) (n : LpId) (l : Lp) (k : Fin 8) : (s.setLp n l).slipN n k = l.slips.get k := by
  simp [State.slipN]

/-- The running slip of the LP an update names, and of any other. -/
@[simp] theorem slip_setSlip (s : State) (n : LpId) (x : Slip) : (s.setSlip n x).slip n = x := by
  simp [State.slip, State.slipN, vget_set]
@[simp] theorem slip_setSlip_ne (s : State) (n m : LpId) (x : Slip) (h : n ≠ m) : (s.setSlip n x).slip m = s.slip m := by
  simp [State.slip, State.slipN, h]
@[simp] theorem slip_item (s : State) (n m : LpId) (k j : Nat) (w : List Word) : (s.item n k j w).slip m = s.slip m := rfl
@[simp] theorem slip_setLpv (s : State) (n m : LpId) (v : LpVol) : (s.setLpv n v).slip m = s.slip m := rfl
@[simp] theorem slip_setPc (s : State) (n : LpId) (v : Word) :
    (s.setPc n v).slip n = { s.slip n with pc := v, dirty := (s.slip n).dirty ||| 16 } := slip_setSlip _ _ _
@[simp] theorem slip_setG (s : State) (n : LpId) (r : Reg) (v : Word) :
    (s.setG n r v).slip n = { s.slip n with g := (s.slip n).g.set r.val v r.isLt,
                                            dirty := (s.slip n).dirty ||| (if r.val < 16 then 1 else 2) } := by
  simp [State.setG]
@[simp] theorem slip_setF (s : State) (n : LpId) (r : Reg) (v : Word) :
    (s.setF n r v).slip n = { s.slip n with f := (s.slip n).f.set r.val v r.isLt,
                                            dirty := (s.slip n).dirty ||| (if r.val < 16 then 4 else 8) } := by
  simp [State.setF]

theorem slip_eq (s : State) (n : LpId) : s.slip n = (s.lp n).slips.get (s.lp n).run := rfl
theorem slipN_eq (s : State) (n : LpId) (k : Fin 8) : s.slipN n k = (s.lp n).slips.get k := rfl

/-! ## Counting touches the tally alone -/

theorem bumpOne_mem (s : State) (i c n : Nat) : (s.bumpOne i c n).mem = s.mem := by
  unfold State.bumpOne; simp only; split <;> rfl
theorem countFrom_mem (s : State) (b c n k : Nat) : (s.countFrom b c n k).mem = s.mem := by
  induction k with
  | zero => rfl
  | succ k ih => simpa only [State.countFrom, bumpOne_mem] using ih
@[simp] theorem count_mem (s : State) (b c n k : Nat) : (s.count b c n k).mem = s.mem := by
  unfold State.count; split
  · rfl
  · exact countFrom_mem s b c n k
@[simp] theorem countLp_mem (s : State) (n : LpId) (c k : Nat) : (s.countLp n c k).mem = s.mem := count_mem _ _ _ _ _
@[simp] theorem countCl_mem (s : State) (n c k : Nat) : (s.countCl n c k).mem = s.mem := count_mem _ _ _ _ _
@[simp] theorem countPm_mem (s : State) (n c k : Nat) : (s.countPm n c k).mem = s.mem := count_mem _ _ _ _ _

theorem bumpOne_nv (s : State) (i c n : Nat) : (s.bumpOne i c n).nv = s.nv := by
  unfold State.bumpOne; simp only; split <;> rfl
theorem countFrom_nv (s : State) (b c n k : Nat) : (s.countFrom b c n k).nv = s.nv := by
  induction k with
  | zero => rfl
  | succ k ih => simpa only [State.countFrom, bumpOne_nv] using ih
@[simp] theorem count_nv (s : State) (b c n k : Nat) : (s.count b c n k).nv = s.nv := by
  unfold State.count; split
  · rfl
  · exact countFrom_nv s b c n k
@[simp] theorem countLp_nv (s : State) (n : LpId) (c k : Nat) : (s.countLp n c k).nv = s.nv := count_nv _ _ _ _ _
@[simp] theorem countCl_nv (s : State) (n c k : Nat) : (s.countCl n c k).nv = s.nv := count_nv _ _ _ _ _
@[simp] theorem countPm_nv (s : State) (n c k : Nat) : (s.countPm n c k).nv = s.nv := count_nv _ _ _ _ _

theorem bumpOne_std (s : State) (i c n : Nat) : (s.bumpOne i c n).std = s.std := by
  unfold State.bumpOne; simp only; split <;> rfl
theorem countFrom_std (s : State) (b c n k : Nat) : (s.countFrom b c n k).std = s.std := by
  induction k with
  | zero => rfl
  | succ k ih => simpa only [State.countFrom, bumpOne_std] using ih
@[simp] theorem count_std (s : State) (b c n k : Nat) : (s.count b c n k).std = s.std := by
  unfold State.count; split
  · rfl
  · exact countFrom_std s b c n k
@[simp] theorem countLp_std (s : State) (n : LpId) (c k : Nat) : (s.countLp n c k).std = s.std := count_std _ _ _ _ _
@[simp] theorem countCl_std (s : State) (n c k : Nat) : (s.countCl n c k).std = s.std := count_std _ _ _ _ _
@[simp] theorem countPm_std (s : State) (n c k : Nat) : (s.countPm n c k).std = s.std := count_std _ _ _ _ _

theorem bumpOne_pwr (s : State) (i c n : Nat) : (s.bumpOne i c n).pwr = s.pwr := by
  unfold State.bumpOne; simp only; split <;> rfl
theorem countFrom_pwr (s : State) (b c n k : Nat) : (s.countFrom b c n k).pwr = s.pwr := by
  induction k with
  | zero => rfl
  | succ k ih => simpa only [State.countFrom, bumpOne_pwr] using ih
@[simp] theorem count_pwr (s : State) (b c n k : Nat) : (s.count b c n k).pwr = s.pwr := by
  unfold State.count; split
  · rfl
  · exact countFrom_pwr s b c n k
@[simp] theorem countLp_pwr (s : State) (n : LpId) (c k : Nat) : (s.countLp n c k).pwr = s.pwr := count_pwr _ _ _ _ _
@[simp] theorem countCl_pwr (s : State) (n c k : Nat) : (s.countCl n c k).pwr = s.pwr := count_pwr _ _ _ _ _
@[simp] theorem countPm_pwr (s : State) (n c k : Nat) : (s.countPm n c k).pwr = s.pwr := count_pwr _ _ _ _ _

theorem bumpOne_pending (s : State) (i c n : Nat) : (s.bumpOne i c n).pending = s.pending := by
  unfold State.bumpOne; simp only; split <;> rfl
theorem countFrom_pending (s : State) (b c n k : Nat) : (s.countFrom b c n k).pending = s.pending := by
  induction k with
  | zero => rfl
  | succ k ih => simpa only [State.countFrom, bumpOne_pending] using ih
@[simp] theorem count_pending (s : State) (b c n k : Nat) : (s.count b c n k).pending = s.pending := by
  unfold State.count; split
  · rfl
  · exact countFrom_pending s b c n k
@[simp] theorem countLp_pending (s : State) (n : LpId) (c k : Nat) : (s.countLp n c k).pending = s.pending := count_pending _ _ _ _ _
@[simp] theorem countCl_pending (s : State) (n c k : Nat) : (s.countCl n c k).pending = s.pending := count_pending _ _ _ _ _
@[simp] theorem countPm_pending (s : State) (n c k : Nat) : (s.countPm n c k).pending = s.pending := count_pending _ _ _ _ _

theorem bumpOne_free (s : State) (i c n : Nat) : (s.bumpOne i c n).free = s.free := by
  unfold State.bumpOne; simp only; split <;> rfl
theorem countFrom_free (s : State) (b c n k : Nat) : (s.countFrom b c n k).free = s.free := by
  induction k with
  | zero => rfl
  | succ k ih => simpa only [State.countFrom, bumpOne_free] using ih
@[simp] theorem count_free (s : State) (b c n k : Nat) : (s.count b c n k).free = s.free := by
  unfold State.count; split
  · rfl
  · exact countFrom_free s b c n k
@[simp] theorem countLp_free (s : State) (n : LpId) (c k : Nat) : (s.countLp n c k).free = s.free := count_free _ _ _ _ _
@[simp] theorem countCl_free (s : State) (n c k : Nat) : (s.countCl n c k).free = s.free := count_free _ _ _ _ _
@[simp] theorem countPm_free (s : State) (n c k : Nat) : (s.countPm n c k).free = s.free := count_free _ _ _ _ _

theorem bumpOne_live_regs (s : State) (i c n : Nat) : (s.bumpOne i c n).live.regs = s.live.regs := by
  unfold State.bumpOne; simp only; split <;> rfl
theorem countFrom_live_regs (s : State) (b c n k : Nat) : (s.countFrom b c n k).live.regs = s.live.regs := by
  induction k with
  | zero => rfl
  | succ k ih => simpa only [State.countFrom, bumpOne_live_regs] using ih
@[simp] theorem count_live_regs (s : State) (b c n k : Nat) : (s.count b c n k).live.regs = s.live.regs := by
  unfold State.count; split
  · rfl
  · exact countFrom_live_regs s b c n k
@[simp] theorem countLp_live_regs (s : State) (n : LpId) (c k : Nat) : (s.countLp n c k).live.regs = s.live.regs := count_live_regs _ _ _ _ _
@[simp] theorem countCl_live_regs (s : State) (n c k : Nat) : (s.countCl n c k).live.regs = s.live.regs := count_live_regs _ _ _ _ _
@[simp] theorem countPm_live_regs (s : State) (n c k : Nat) : (s.countPm n c k).live.regs = s.live.regs := count_live_regs _ _ _ _ _

theorem bumpOne_live_lps (s : State) (i c n : Nat) : (s.bumpOne i c n).live.lps = s.live.lps := by
  unfold State.bumpOne; simp only; split <;> rfl
theorem countFrom_live_lps (s : State) (b c n k : Nat) : (s.countFrom b c n k).live.lps = s.live.lps := by
  induction k with
  | zero => rfl
  | succ k ih => simpa only [State.countFrom, bumpOne_live_lps] using ih
@[simp] theorem count_live_lps (s : State) (b c n k : Nat) : (s.count b c n k).live.lps = s.live.lps := by
  unfold State.count; split
  · rfl
  · exact countFrom_live_lps s b c n k
@[simp] theorem countLp_live_lps (s : State) (n : LpId) (c k : Nat) : (s.countLp n c k).live.lps = s.live.lps := count_live_lps _ _ _ _ _
@[simp] theorem countCl_live_lps (s : State) (n c k : Nat) : (s.countCl n c k).live.lps = s.live.lps := count_live_lps _ _ _ _ _
@[simp] theorem countPm_live_lps (s : State) (n c k : Nat) : (s.countPm n c k).live.lps = s.live.lps := count_live_lps _ _ _ _ _

theorem bumpOne_live_time (s : State) (i c n : Nat) : (s.bumpOne i c n).live.time = s.live.time := by
  unfold State.bumpOne; simp only; split <;> rfl
theorem countFrom_live_time (s : State) (b c n k : Nat) : (s.countFrom b c n k).live.time = s.live.time := by
  induction k with
  | zero => rfl
  | succ k ih => simpa only [State.countFrom, bumpOne_live_time] using ih
@[simp] theorem count_live_time (s : State) (b c n k : Nat) : (s.count b c n k).live.time = s.live.time := by
  unfold State.count; split
  · rfl
  · exact countFrom_live_time s b c n k
@[simp] theorem countLp_live_time (s : State) (n : LpId) (c k : Nat) : (s.countLp n c k).live.time = s.live.time := count_live_time _ _ _ _ _
@[simp] theorem countCl_live_time (s : State) (n c k : Nat) : (s.countCl n c k).live.time = s.live.time := count_live_time _ _ _ _ _
@[simp] theorem countPm_live_time (s : State) (n c k : Nat) : (s.countPm n c k).live.time = s.live.time := count_live_time _ _ _ _ _

theorem bumpOne_live_sets (s : State) (i c n : Nat) : (s.bumpOne i c n).live.sets = s.live.sets := by
  unfold State.bumpOne; simp only; split <;> rfl
theorem countFrom_live_sets (s : State) (b c n k : Nat) : (s.countFrom b c n k).live.sets = s.live.sets := by
  induction k with
  | zero => rfl
  | succ k ih => simpa only [State.countFrom, bumpOne_live_sets] using ih
@[simp] theorem count_live_sets (s : State) (b c n k : Nat) : (s.count b c n k).live.sets = s.live.sets := by
  unfold State.count; split
  · rfl
  · exact countFrom_live_sets s b c n k
@[simp] theorem countLp_live_sets (s : State) (n : LpId) (c k : Nat) : (s.countLp n c k).live.sets = s.live.sets := count_live_sets _ _ _ _ _
@[simp] theorem countCl_live_sets (s : State) (n c k : Nat) : (s.countCl n c k).live.sets = s.live.sets := count_live_sets _ _ _ _ _
@[simp] theorem countPm_live_sets (s : State) (n c k : Nat) : (s.countPm n c k).live.sets = s.live.sets := count_live_sets _ _ _ _ _

theorem bumpOne_live_plan (s : State) (i c n : Nat) : (s.bumpOne i c n).live.plan = s.live.plan := by
  unfold State.bumpOne; simp only; split <;> rfl
theorem countFrom_live_plan (s : State) (b c n k : Nat) : (s.countFrom b c n k).live.plan = s.live.plan := by
  induction k with
  | zero => rfl
  | succ k ih => simpa only [State.countFrom, bumpOne_live_plan] using ih
@[simp] theorem count_live_plan (s : State) (b c n k : Nat) : (s.count b c n k).live.plan = s.live.plan := by
  unfold State.count; split
  · rfl
  · exact countFrom_live_plan s b c n k
@[simp] theorem countLp_live_plan (s : State) (n : LpId) (c k : Nat) : (s.countLp n c k).live.plan = s.live.plan := count_live_plan _ _ _ _ _
@[simp] theorem countCl_live_plan (s : State) (n c k : Nat) : (s.countCl n c k).live.plan = s.live.plan := count_live_plan _ _ _ _ _
@[simp] theorem countPm_live_plan (s : State) (n c k : Nat) : (s.countPm n c k).live.plan = s.live.plan := count_live_plan _ _ _ _ _

theorem bumpOne_vol_lps (s : State) (i c n : Nat) : (s.bumpOne i c n).vol.lps = s.vol.lps := by
  unfold State.bumpOne; simp only; split <;> rfl
theorem countFrom_vol_lps (s : State) (b c n k : Nat) : (s.countFrom b c n k).vol.lps = s.vol.lps := by
  induction k with
  | zero => rfl
  | succ k ih => simpa only [State.countFrom, bumpOne_vol_lps] using ih
@[simp] theorem count_vol_lps (s : State) (b c n k : Nat) : (s.count b c n k).vol.lps = s.vol.lps := by
  unfold State.count; split
  · rfl
  · exact countFrom_vol_lps s b c n k
@[simp] theorem countLp_vol_lps (s : State) (n : LpId) (c k : Nat) : (s.countLp n c k).vol.lps = s.vol.lps := count_vol_lps _ _ _ _ _
@[simp] theorem countCl_vol_lps (s : State) (n c k : Nat) : (s.countCl n c k).vol.lps = s.vol.lps := count_vol_lps _ _ _ _ _
@[simp] theorem countPm_vol_lps (s : State) (n c k : Nat) : (s.countPm n c k).vol.lps = s.vol.lps := count_vol_lps _ _ _ _ _

theorem bumpOne_vol_caches (s : State) (i c n : Nat) : (s.bumpOne i c n).vol.caches = s.vol.caches := by
  unfold State.bumpOne; simp only; split <;> rfl
theorem countFrom_vol_caches (s : State) (b c n k : Nat) : (s.countFrom b c n k).vol.caches = s.vol.caches := by
  induction k with
  | zero => rfl
  | succ k ih => simpa only [State.countFrom, bumpOne_vol_caches] using ih
@[simp] theorem count_vol_caches (s : State) (b c n k : Nat) : (s.count b c n k).vol.caches = s.vol.caches := by
  unfold State.count; split
  · rfl
  · exact countFrom_vol_caches s b c n k
@[simp] theorem countLp_vol_caches (s : State) (n : LpId) (c k : Nat) : (s.countLp n c k).vol.caches = s.vol.caches := count_vol_caches _ _ _ _ _
@[simp] theorem countCl_vol_caches (s : State) (n c k : Nat) : (s.countCl n c k).vol.caches = s.vol.caches := count_vol_caches _ _ _ _ _
@[simp] theorem countPm_vol_caches (s : State) (n c k : Nat) : (s.countPm n c k).vol.caches = s.vol.caches := count_vol_caches _ _ _ _ _

theorem bumpOne_vol_store (s : State) (i c n : Nat) : (s.bumpOne i c n).vol.store = s.vol.store := by
  unfold State.bumpOne; simp only; split <;> rfl
theorem countFrom_vol_store (s : State) (b c n k : Nat) : (s.countFrom b c n k).vol.store = s.vol.store := by
  induction k with
  | zero => rfl
  | succ k ih => simpa only [State.countFrom, bumpOne_vol_store] using ih
@[simp] theorem count_vol_store (s : State) (b c n k : Nat) : (s.count b c n k).vol.store = s.vol.store := by
  unfold State.count; split
  · rfl
  · exact countFrom_vol_store s b c n k
@[simp] theorem countLp_vol_store (s : State) (n : LpId) (c k : Nat) : (s.countLp n c k).vol.store = s.vol.store := count_vol_store _ _ _ _ _
@[simp] theorem countCl_vol_store (s : State) (n c k : Nat) : (s.countCl n c k).vol.store = s.vol.store := count_vol_store _ _ _ _ _
@[simp] theorem countPm_vol_store (s : State) (n c k : Nat) : (s.countPm n c k).vol.store = s.vol.store := count_vol_store _ _ _ _ _

@[simp] theorem setLp_live_unchecked (s : State) (n : LpId) (l : Lp) : (s.setLp n l).live.unchecked = s.live.unchecked := rfl
@[simp] theorem setLp_live_lockTags (s : State) (n : LpId) (l : Lp) : (s.setLp n l).live.lockTags = s.live.lockTags := rfl
@[simp] theorem setLp_live_tally (s : State) (n : LpId) (l : Lp) : (s.setLp n l).live.tally = s.live.tally := rfl
@[simp] theorem setLp_live_stats (s : State) (n : LpId) (l : Lp) : (s.setLp n l).live.stats = s.live.stats := rfl
@[simp] theorem setLp_live_xlatched (s : State) (n : LpId) (l : Lp) : (s.setLp n l).live.xlatched = s.live.xlatched := rfl
@[simp] theorem setLp_live_changed (s : State) (n : LpId) (l : Lp) : (s.setLp n l).live.changed = s.live.changed := rfl
@[simp] theorem setLp_live_tallySeq (s : State) (n : LpId) (l : Lp) : (s.setLp n l).live.tallySeq = s.live.tallySeq := rfl
@[simp] theorem setLp_live_tallyStart (s : State) (n : LpId) (l : Lp) : (s.setLp n l).live.tallyStart = s.live.tallyStart := rfl
@[simp] theorem setLp_live_linesLost (s : State) (n : LpId) (l : Lp) : (s.setLp n l).live.linesLost = s.live.linesLost := rfl
@[simp] theorem setLp_live_ch (s : State) (n : LpId) (l : Lp) : (s.setLp n l).live.ch = s.live.ch := rfl
@[simp] theorem setLp_live_xs (s : State) (n : LpId) (l : Lp) : (s.setLp n l).live.xs = s.live.xs := rfl
@[simp] theorem setLp_live_landings (s : State) (n : LpId) (l : Lp) : (s.setLp n l).live.landings = s.live.landings := rfl
@[simp] theorem setLp_live_resumes (s : State) (n : LpId) (l : Lp) : (s.setLp n l).live.resumes = s.live.resumes := rfl
@[simp] theorem setLp_live_debugSince (s : State) (n : LpId) (l : Lp) : (s.setLp n l).live.debugSince = s.live.debugSince := rfl
@[simp] theorem setLp_live_digest (s : State) (n : LpId) (l : Lp) : (s.setLp n l).live.digest = s.live.digest := rfl
@[simp] theorem setLp_live_measures (s : State) (n : LpId) (l : Lp) : (s.setLp n l).live.measures = s.live.measures := rfl
@[simp] theorem setLp_live_svns (s : State) (n : LpId) (l : Lp) : (s.setLp n l).live.svns = s.live.svns := rfl
@[simp] theorem setLp_vol_held (s : State) (n : LpId) (l : Lp) : (s.setLp n l).vol.held = s.vol.held := rfl
@[simp] theorem setLp_vol_sampleDue (s : State) (n : LpId) (l : Lp) : (s.setLp n l).vol.sampleDue = s.vol.sampleDue := rfl
@[simp] theorem setLp_vol_scrub (s : State) (n : LpId) (l : Lp) : (s.setLp n l).vol.scrub = s.vol.scrub := rfl
@[simp] theorem setLp_vol_peers (s : State) (n : LpId) (l : Lp) : (s.setLp n l).vol.peers = s.vol.peers := rfl
@[simp] theorem setLp_vol_fetched (s : State) (n : LpId) (l : Lp) : (s.setLp n l).vol.fetched = s.vol.fetched := rfl
@[simp] theorem setLp_vol_steps (s : State) (n : LpId) (l : Lp) : (s.setLp n l).vol.steps = s.vol.steps := rfl
@[simp] theorem setLp_vol_ctxs (s : State) (n : LpId) (l : Lp) : (s.setLp n l).vol.ctxs = s.vol.ctxs := rfl
@[simp] theorem setLp_vol_dumps (s : State) (n : LpId) (l : Lp) : (s.setLp n l).vol.dumps = s.vol.dumps := rfl
@[simp] theorem setLp_vol_skipped (s : State) (n : LpId) (l : Lp) : (s.setLp n l).vol.skipped = s.vol.skipped := rfl
@[simp] theorem setLp_vol_badWords (s : State) (n : LpId) (l : Lp) : (s.setLp n l).vol.badWords = s.vol.badWords := rfl
@[simp] theorem setLp_vol_heldFor (s : State) (n : LpId) (l : Lp) : (s.setLp n l).vol.heldFor = s.vol.heldFor := rfl
@[simp] theorem setLp_vol_dumpSent (s : State) (n : LpId) (l : Lp) : (s.setLp n l).vol.dumpSent = s.vol.dumpSent := rfl
@[simp] theorem setLp_vol_turns (s : State) (n : LpId) (l : Lp) : (s.setLp n l).vol.turns = s.vol.turns := rfl
@[simp] theorem setLp_vol_verifying (s : State) (n : LpId) (l : Lp) : (s.setLp n l).vol.verifying = s.vol.verifying := rfl
@[simp] theorem setLp_vol_waited (s : State) (n : LpId) (l : Lp) : (s.setLp n l).vol.waited = s.vol.waited := rfl
@[simp] theorem setLp_vol_mfWait (s : State) (n : LpId) (l : Lp) : (s.setLp n l).vol.mfWait = s.vol.mfWait := rfl
@[simp] theorem setLp_vol_flxWait (s : State) (n : LpId) (l : Lp) : (s.setLp n l).vol.flxWait = s.vol.flxWait := rfl

@[simp] theorem setLpv_live_unchecked (s : State) (n : LpId) (v : LpVol) : (s.setLpv n v).live.unchecked = s.live.unchecked := rfl
@[simp] theorem setLpv_live_lockTags (s : State) (n : LpId) (v : LpVol) : (s.setLpv n v).live.lockTags = s.live.lockTags := rfl
@[simp] theorem setLpv_live_tally (s : State) (n : LpId) (v : LpVol) : (s.setLpv n v).live.tally = s.live.tally := rfl
@[simp] theorem setLpv_live_stats (s : State) (n : LpId) (v : LpVol) : (s.setLpv n v).live.stats = s.live.stats := rfl
@[simp] theorem setLpv_live_xlatched (s : State) (n : LpId) (v : LpVol) : (s.setLpv n v).live.xlatched = s.live.xlatched := rfl
@[simp] theorem setLpv_live_changed (s : State) (n : LpId) (v : LpVol) : (s.setLpv n v).live.changed = s.live.changed := rfl
@[simp] theorem setLpv_live_tallySeq (s : State) (n : LpId) (v : LpVol) : (s.setLpv n v).live.tallySeq = s.live.tallySeq := rfl
@[simp] theorem setLpv_live_tallyStart (s : State) (n : LpId) (v : LpVol) : (s.setLpv n v).live.tallyStart = s.live.tallyStart := rfl
@[simp] theorem setLpv_live_linesLost (s : State) (n : LpId) (v : LpVol) : (s.setLpv n v).live.linesLost = s.live.linesLost := rfl
@[simp] theorem setLpv_live_ch (s : State) (n : LpId) (v : LpVol) : (s.setLpv n v).live.ch = s.live.ch := rfl
@[simp] theorem setLpv_live_xs (s : State) (n : LpId) (v : LpVol) : (s.setLpv n v).live.xs = s.live.xs := rfl
@[simp] theorem setLpv_live_landings (s : State) (n : LpId) (v : LpVol) : (s.setLpv n v).live.landings = s.live.landings := rfl
@[simp] theorem setLpv_live_resumes (s : State) (n : LpId) (v : LpVol) : (s.setLpv n v).live.resumes = s.live.resumes := rfl
@[simp] theorem setLpv_live_debugSince (s : State) (n : LpId) (v : LpVol) : (s.setLpv n v).live.debugSince = s.live.debugSince := rfl
@[simp] theorem setLpv_live_digest (s : State) (n : LpId) (v : LpVol) : (s.setLpv n v).live.digest = s.live.digest := rfl
@[simp] theorem setLpv_live_measures (s : State) (n : LpId) (v : LpVol) : (s.setLpv n v).live.measures = s.live.measures := rfl
@[simp] theorem setLpv_live_svns (s : State) (n : LpId) (v : LpVol) : (s.setLpv n v).live.svns = s.live.svns := rfl
@[simp] theorem setLpv_vol_held (s : State) (n : LpId) (v : LpVol) : (s.setLpv n v).vol.held = s.vol.held := rfl
@[simp] theorem setLpv_vol_sampleDue (s : State) (n : LpId) (v : LpVol) : (s.setLpv n v).vol.sampleDue = s.vol.sampleDue := rfl
@[simp] theorem setLpv_vol_scrub (s : State) (n : LpId) (v : LpVol) : (s.setLpv n v).vol.scrub = s.vol.scrub := rfl
@[simp] theorem setLpv_vol_peers (s : State) (n : LpId) (v : LpVol) : (s.setLpv n v).vol.peers = s.vol.peers := rfl
@[simp] theorem setLpv_vol_fetched (s : State) (n : LpId) (v : LpVol) : (s.setLpv n v).vol.fetched = s.vol.fetched := rfl
@[simp] theorem setLpv_vol_steps (s : State) (n : LpId) (v : LpVol) : (s.setLpv n v).vol.steps = s.vol.steps := rfl
@[simp] theorem setLpv_vol_ctxs (s : State) (n : LpId) (v : LpVol) : (s.setLpv n v).vol.ctxs = s.vol.ctxs := rfl
@[simp] theorem setLpv_vol_dumps (s : State) (n : LpId) (v : LpVol) : (s.setLpv n v).vol.dumps = s.vol.dumps := rfl
@[simp] theorem setLpv_vol_skipped (s : State) (n : LpId) (v : LpVol) : (s.setLpv n v).vol.skipped = s.vol.skipped := rfl
@[simp] theorem setLpv_vol_badWords (s : State) (n : LpId) (v : LpVol) : (s.setLpv n v).vol.badWords = s.vol.badWords := rfl
@[simp] theorem setLpv_vol_heldFor (s : State) (n : LpId) (v : LpVol) : (s.setLpv n v).vol.heldFor = s.vol.heldFor := rfl
@[simp] theorem setLpv_vol_dumpSent (s : State) (n : LpId) (v : LpVol) : (s.setLpv n v).vol.dumpSent = s.vol.dumpSent := rfl
@[simp] theorem setLpv_vol_turns (s : State) (n : LpId) (v : LpVol) : (s.setLpv n v).vol.turns = s.vol.turns := rfl
@[simp] theorem setLpv_vol_verifying (s : State) (n : LpId) (v : LpVol) : (s.setLpv n v).vol.verifying = s.vol.verifying := rfl
@[simp] theorem setLpv_vol_waited (s : State) (n : LpId) (v : LpVol) : (s.setLpv n v).vol.waited = s.vol.waited := rfl
@[simp] theorem setLpv_vol_mfWait (s : State) (n : LpId) (v : LpVol) : (s.setLpv n v).vol.mfWait = s.vol.mfWait := rfl
@[simp] theorem setLpv_vol_flxWait (s : State) (n : LpId) (v : LpVol) : (s.setLpv n v).vol.flxWait = s.vol.flxWait := rfl

@[simp] theorem setSlipN_live_unchecked (s : State) (n : LpId) (k : Fin 8) (x : Slip) : (s.setSlipN n k x).live.unchecked = s.live.unchecked := rfl
@[simp] theorem setSlipN_live_lockTags (s : State) (n : LpId) (k : Fin 8) (x : Slip) : (s.setSlipN n k x).live.lockTags = s.live.lockTags := rfl
@[simp] theorem setSlipN_live_tally (s : State) (n : LpId) (k : Fin 8) (x : Slip) : (s.setSlipN n k x).live.tally = s.live.tally := rfl
@[simp] theorem setSlipN_live_stats (s : State) (n : LpId) (k : Fin 8) (x : Slip) : (s.setSlipN n k x).live.stats = s.live.stats := rfl
@[simp] theorem setSlipN_live_xlatched (s : State) (n : LpId) (k : Fin 8) (x : Slip) : (s.setSlipN n k x).live.xlatched = s.live.xlatched := rfl
@[simp] theorem setSlipN_live_changed (s : State) (n : LpId) (k : Fin 8) (x : Slip) : (s.setSlipN n k x).live.changed = s.live.changed := rfl
@[simp] theorem setSlipN_live_tallySeq (s : State) (n : LpId) (k : Fin 8) (x : Slip) : (s.setSlipN n k x).live.tallySeq = s.live.tallySeq := rfl
@[simp] theorem setSlipN_live_tallyStart (s : State) (n : LpId) (k : Fin 8) (x : Slip) : (s.setSlipN n k x).live.tallyStart = s.live.tallyStart := rfl
@[simp] theorem setSlipN_live_linesLost (s : State) (n : LpId) (k : Fin 8) (x : Slip) : (s.setSlipN n k x).live.linesLost = s.live.linesLost := rfl
@[simp] theorem setSlipN_live_ch (s : State) (n : LpId) (k : Fin 8) (x : Slip) : (s.setSlipN n k x).live.ch = s.live.ch := rfl
@[simp] theorem setSlipN_live_xs (s : State) (n : LpId) (k : Fin 8) (x : Slip) : (s.setSlipN n k x).live.xs = s.live.xs := rfl
@[simp] theorem setSlipN_live_landings (s : State) (n : LpId) (k : Fin 8) (x : Slip) : (s.setSlipN n k x).live.landings = s.live.landings := rfl
@[simp] theorem setSlipN_live_resumes (s : State) (n : LpId) (k : Fin 8) (x : Slip) : (s.setSlipN n k x).live.resumes = s.live.resumes := rfl
@[simp] theorem setSlipN_live_debugSince (s : State) (n : LpId) (k : Fin 8) (x : Slip) : (s.setSlipN n k x).live.debugSince = s.live.debugSince := rfl
@[simp] theorem setSlipN_live_digest (s : State) (n : LpId) (k : Fin 8) (x : Slip) : (s.setSlipN n k x).live.digest = s.live.digest := rfl
@[simp] theorem setSlipN_live_measures (s : State) (n : LpId) (k : Fin 8) (x : Slip) : (s.setSlipN n k x).live.measures = s.live.measures := rfl
@[simp] theorem setSlipN_live_svns (s : State) (n : LpId) (k : Fin 8) (x : Slip) : (s.setSlipN n k x).live.svns = s.live.svns := rfl
@[simp] theorem setSlipN_vol_held (s : State) (n : LpId) (k : Fin 8) (x : Slip) : (s.setSlipN n k x).vol.held = s.vol.held := rfl
@[simp] theorem setSlipN_vol_sampleDue (s : State) (n : LpId) (k : Fin 8) (x : Slip) : (s.setSlipN n k x).vol.sampleDue = s.vol.sampleDue := rfl
@[simp] theorem setSlipN_vol_scrub (s : State) (n : LpId) (k : Fin 8) (x : Slip) : (s.setSlipN n k x).vol.scrub = s.vol.scrub := rfl
@[simp] theorem setSlipN_vol_peers (s : State) (n : LpId) (k : Fin 8) (x : Slip) : (s.setSlipN n k x).vol.peers = s.vol.peers := rfl
@[simp] theorem setSlipN_vol_fetched (s : State) (n : LpId) (k : Fin 8) (x : Slip) : (s.setSlipN n k x).vol.fetched = s.vol.fetched := rfl
@[simp] theorem setSlipN_vol_steps (s : State) (n : LpId) (k : Fin 8) (x : Slip) : (s.setSlipN n k x).vol.steps = s.vol.steps := rfl
@[simp] theorem setSlipN_vol_ctxs (s : State) (n : LpId) (k : Fin 8) (x : Slip) : (s.setSlipN n k x).vol.ctxs = s.vol.ctxs := rfl
@[simp] theorem setSlipN_vol_dumps (s : State) (n : LpId) (k : Fin 8) (x : Slip) : (s.setSlipN n k x).vol.dumps = s.vol.dumps := rfl
@[simp] theorem setSlipN_vol_skipped (s : State) (n : LpId) (k : Fin 8) (x : Slip) : (s.setSlipN n k x).vol.skipped = s.vol.skipped := rfl
@[simp] theorem setSlipN_vol_badWords (s : State) (n : LpId) (k : Fin 8) (x : Slip) : (s.setSlipN n k x).vol.badWords = s.vol.badWords := rfl
@[simp] theorem setSlipN_vol_heldFor (s : State) (n : LpId) (k : Fin 8) (x : Slip) : (s.setSlipN n k x).vol.heldFor = s.vol.heldFor := rfl
@[simp] theorem setSlipN_vol_dumpSent (s : State) (n : LpId) (k : Fin 8) (x : Slip) : (s.setSlipN n k x).vol.dumpSent = s.vol.dumpSent := rfl
@[simp] theorem setSlipN_vol_turns (s : State) (n : LpId) (k : Fin 8) (x : Slip) : (s.setSlipN n k x).vol.turns = s.vol.turns := rfl
@[simp] theorem setSlipN_vol_verifying (s : State) (n : LpId) (k : Fin 8) (x : Slip) : (s.setSlipN n k x).vol.verifying = s.vol.verifying := rfl
@[simp] theorem setSlipN_vol_waited (s : State) (n : LpId) (k : Fin 8) (x : Slip) : (s.setSlipN n k x).vol.waited = s.vol.waited := rfl
@[simp] theorem setSlipN_vol_mfWait (s : State) (n : LpId) (k : Fin 8) (x : Slip) : (s.setSlipN n k x).vol.mfWait = s.vol.mfWait := rfl
@[simp] theorem setSlipN_vol_flxWait (s : State) (n : LpId) (k : Fin 8) (x : Slip) : (s.setSlipN n k x).vol.flxWait = s.vol.flxWait := rfl

@[simp] theorem withCaches_pending (s : State) (f : Caches → Caches) : (s.withCaches f).pending = s.pending := rfl
@[simp] theorem withCaches_free (s : State) (f : Caches → Caches) : (s.withCaches f).free = s.free := rfl
@[simp] theorem withCaches_live (s : State) (f : Caches → Caches) : (s.withCaches f).live = s.live := rfl
@[simp] theorem withCaches_mem (s : State) (f : Caches → Caches) : (s.withCaches f).mem = s.mem := rfl
@[simp] theorem withCaches_std (s : State) (f : Caches → Caches) : (s.withCaches f).std = s.std := rfl
@[simp] theorem withCaches_nv (s : State) (f : Caches → Caches) : (s.withCaches f).nv = s.nv := rfl
@[simp] theorem withCaches_pwr (s : State) (f : Caches → Caches) : (s.withCaches f).pwr = s.pwr := rfl
@[simp] theorem withCaches_vol_lps (s : State) (f : Caches → Caches) : (s.withCaches f).vol.lps = s.vol.lps := rfl
@[simp] theorem withCaches_vol_store (s : State) (f : Caches → Caches) : (s.withCaches f).vol.store = s.vol.store := rfl
@[simp] theorem withCaches_vol_held (s : State) (f : Caches → Caches) : (s.withCaches f).vol.held = s.vol.held := rfl
@[simp] theorem withCaches_vol_sampleDue (s : State) (f : Caches → Caches) : (s.withCaches f).vol.sampleDue = s.vol.sampleDue := rfl
@[simp] theorem withCaches_vol_scrub (s : State) (f : Caches → Caches) : (s.withCaches f).vol.scrub = s.vol.scrub := rfl
@[simp] theorem withCaches_vol_peers (s : State) (f : Caches → Caches) : (s.withCaches f).vol.peers = s.vol.peers := rfl
@[simp] theorem withCaches_vol_fetched (s : State) (f : Caches → Caches) : (s.withCaches f).vol.fetched = s.vol.fetched := rfl
@[simp] theorem withCaches_vol_steps (s : State) (f : Caches → Caches) : (s.withCaches f).vol.steps = s.vol.steps := rfl
@[simp] theorem withCaches_vol_ctxs (s : State) (f : Caches → Caches) : (s.withCaches f).vol.ctxs = s.vol.ctxs := rfl
@[simp] theorem withCaches_vol_dumps (s : State) (f : Caches → Caches) : (s.withCaches f).vol.dumps = s.vol.dumps := rfl
@[simp] theorem withCaches_vol_skipped (s : State) (f : Caches → Caches) : (s.withCaches f).vol.skipped = s.vol.skipped := rfl
@[simp] theorem withCaches_vol_badWords (s : State) (f : Caches → Caches) : (s.withCaches f).vol.badWords = s.vol.badWords := rfl
@[simp] theorem withCaches_vol_heldFor (s : State) (f : Caches → Caches) : (s.withCaches f).vol.heldFor = s.vol.heldFor := rfl
@[simp] theorem withCaches_vol_dumpSent (s : State) (f : Caches → Caches) : (s.withCaches f).vol.dumpSent = s.vol.dumpSent := rfl
@[simp] theorem withCaches_vol_turns (s : State) (f : Caches → Caches) : (s.withCaches f).vol.turns = s.vol.turns := rfl
@[simp] theorem withCaches_vol_verifying (s : State) (f : Caches → Caches) : (s.withCaches f).vol.verifying = s.vol.verifying := rfl
@[simp] theorem withCaches_vol_waited (s : State) (f : Caches → Caches) : (s.withCaches f).vol.waited = s.vol.waited := rfl
@[simp] theorem withCaches_vol_mfWait (s : State) (f : Caches → Caches) : (s.withCaches f).vol.mfWait = s.vol.mfWait := rfl
@[simp] theorem withCaches_vol_flxWait (s : State) (f : Caches → Caches) : (s.withCaches f).vol.flxWait = s.vol.flxWait := rfl

@[simp] theorem setCline_pending (s : State) (a n : Nat) (c : CLine) : (s.setCline a n c).pending = s.pending := rfl
@[simp] theorem setCline_free (s : State) (a n : Nat) (c : CLine) : (s.setCline a n c).free = s.free := rfl
@[simp] theorem setCline_live (s : State) (a n : Nat) (c : CLine) : (s.setCline a n c).live = s.live := rfl
@[simp] theorem setCline_mem (s : State) (a n : Nat) (c : CLine) : (s.setCline a n c).mem = s.mem := rfl
@[simp] theorem setCline_std (s : State) (a n : Nat) (c : CLine) : (s.setCline a n c).std = s.std := rfl
@[simp] theorem setCline_nv (s : State) (a n : Nat) (c : CLine) : (s.setCline a n c).nv = s.nv := rfl
@[simp] theorem setCline_pwr (s : State) (a n : Nat) (c : CLine) : (s.setCline a n c).pwr = s.pwr := rfl
@[simp] theorem setCline_vol_lps (s : State) (a n : Nat) (c : CLine) : (s.setCline a n c).vol.lps = s.vol.lps := rfl
@[simp] theorem setCline_vol_store (s : State) (a n : Nat) (c : CLine) : (s.setCline a n c).vol.store = s.vol.store := rfl
@[simp] theorem setCline_vol_held (s : State) (a n : Nat) (c : CLine) : (s.setCline a n c).vol.held = s.vol.held := rfl
@[simp] theorem setCline_vol_sampleDue (s : State) (a n : Nat) (c : CLine) : (s.setCline a n c).vol.sampleDue = s.vol.sampleDue := rfl
@[simp] theorem setCline_vol_scrub (s : State) (a n : Nat) (c : CLine) : (s.setCline a n c).vol.scrub = s.vol.scrub := rfl
@[simp] theorem setCline_vol_peers (s : State) (a n : Nat) (c : CLine) : (s.setCline a n c).vol.peers = s.vol.peers := rfl
@[simp] theorem setCline_vol_fetched (s : State) (a n : Nat) (c : CLine) : (s.setCline a n c).vol.fetched = s.vol.fetched := rfl
@[simp] theorem setCline_vol_steps (s : State) (a n : Nat) (c : CLine) : (s.setCline a n c).vol.steps = s.vol.steps := rfl
@[simp] theorem setCline_vol_ctxs (s : State) (a n : Nat) (c : CLine) : (s.setCline a n c).vol.ctxs = s.vol.ctxs := rfl
@[simp] theorem setCline_vol_dumps (s : State) (a n : Nat) (c : CLine) : (s.setCline a n c).vol.dumps = s.vol.dumps := rfl
@[simp] theorem setCline_vol_skipped (s : State) (a n : Nat) (c : CLine) : (s.setCline a n c).vol.skipped = s.vol.skipped := rfl
@[simp] theorem setCline_vol_badWords (s : State) (a n : Nat) (c : CLine) : (s.setCline a n c).vol.badWords = s.vol.badWords := rfl
@[simp] theorem setCline_vol_heldFor (s : State) (a n : Nat) (c : CLine) : (s.setCline a n c).vol.heldFor = s.vol.heldFor := rfl
@[simp] theorem setCline_vol_dumpSent (s : State) (a n : Nat) (c : CLine) : (s.setCline a n c).vol.dumpSent = s.vol.dumpSent := rfl
@[simp] theorem setCline_vol_turns (s : State) (a n : Nat) (c : CLine) : (s.setCline a n c).vol.turns = s.vol.turns := rfl
@[simp] theorem setCline_vol_verifying (s : State) (a n : Nat) (c : CLine) : (s.setCline a n c).vol.verifying = s.vol.verifying := rfl
@[simp] theorem setCline_vol_waited (s : State) (a n : Nat) (c : CLine) : (s.setCline a n c).vol.waited = s.vol.waited := rfl
@[simp] theorem setCline_vol_mfWait (s : State) (a n : Nat) (c : CLine) : (s.setCline a n c).vol.mfWait = s.vol.mfWait := rfl
@[simp] theorem setCline_vol_flxWait (s : State) (a n : Nat) (c : CLine) : (s.setCline a n c).vol.flxWait = s.vol.flxWait := rfl

@[simp] theorem withCaches_vol_caches (s : State) (f : Caches → Caches) : (s.withCaches f).vol.caches = f s.vol.caches := rfl

@[simp] theorem countLp_lp (s : State) (n m : LpId) (c k : Nat) : (s.countLp n c k).lp m = s.lp m := by
  simp [State.lp]
@[simp] theorem countLp_lpv (s : State) (n m : LpId) (c k : Nat) : (s.countLp n c k).lpv m = s.lpv m := by
  simp [State.lpv]
@[simp] theorem countLp_slip (s : State) (n m : LpId) (c k : Nat) : (s.countLp n c k).slip m = s.slip m := by
  simp [State.slip, State.slipN]
@[simp] theorem countLp_slipN (s : State) (n m : LpId) (j : Fin 8) (c k : Nat) :
    (s.countLp n c k).slipN m j = s.slipN m j := by
  simp [State.slipN]

end Sys2Proof.Machine
end

