-- ==== Sys2Proof/Laws/Memory.lean ====
section
/-! SUPPORT. Registers read as written, and every operation over memory keeps the canonical form of main memory, of the expanders'
memory and of the landing store. -/

namespace Sys2Proof.Machine

/-! ## Registers -/

/-- A register reads as it was set, where the register tables are in canonical form. -/
theorem reg_setReg_self {s : State} (hl : s.live.regs.sorted = true) (hs : s.std.fc.sorted = true) (o : Nat) (v : Word) :
    (s.setReg o v).reg o = v := by
  unfold State.setReg State.reg
  by_cases h : isFcOff o = true
  · simp only [h, if_true]
    exact map_get_put_self hs _ _ _
  · simp only [h, if_false, Bool.false_eq_true]
    exact map_get_put_self hl _ _ _

/-- Every other register reads as before. -/
theorem reg_setReg_ne (s : State) {o p : Nat} (h : p ≠ o) (v : Word) : (s.setReg o v).reg p = s.reg p := by
  unfold State.setReg State.reg
  by_cases h1 : isFcOff o = true <;> by_cases h2 : isFcOff p = true <;>
    simp [h1, h2, map_get_put_ne _ h]

@[simp] theorem setReg_mem (s : State) (o : Nat) (v : Word) : (s.setReg o v).mem = s.mem := by
  unfold State.setReg; split <;> rfl
@[simp] theorem setReg_nv (s : State) (o : Nat) (v : Word) : (s.setReg o v).nv = s.nv := by
  unfold State.setReg; split <;> rfl
@[simp] theorem setRegF_mem (s : State) (o h l v : Nat) : (s.setRegF o h l v).mem = s.mem := setReg_mem _ _ _
@[simp] theorem setRegF_nv (s : State) (o h l v : Nat) : (s.setRegF o h l v).nv = s.nv := setReg_nv _ _ _
@[simp] theorem report_mem (s : State) (n : Nat) : (s.report n).mem = s.mem := rfl
@[simp] theorem report_nv (s : State) (n : Nat) : (s.report n).nv = s.nv := rfl

/-! ## The canonical form of memory -/

/-- The form depends on memory and what is kept without power alone. -/
theorem memOk_of_eq {s t : State} (h : s.memOk = true) (hm : t.mem = s.mem) (hn : t.nv = s.nv) : t.memOk = true := by
  unfold State.memOk at *
  rw [hm, hn]
  exact h

theorem memOk_iff {s : State} :
    s.memOk = true ↔ s.mem.cur.wf = true ∧ s.mem.media.wf = true ∧ Map.wf s.nv.lsRaw (none : Option Byte) = true := by
  simp [State.memOk, and_assoc]

/-- Coherent bytes written. -/
theorem memOk_setCur {s : State} (h : s.memOk = true) (a : Nat) (l : List Byte) (m : Mem)
    (hc : m.cur = s.mem.cur.setBytes a l) (hm : m.media = s.mem.media) : State.memOk { s with mem := m } = true := by
  rw [memOk_iff] at h ⊢
  exact ⟨hc ▸ memory_wf_setBytes h.1 a l, hm ▸ h.2.1, h.2.2⟩

/-- An area of the landing store forgotten. -/
theorem memOk_lsForget {s : State} (h : s.memOk = true) (p : Nat → Bool) : (s.lsForget p).memOk = true := by
  rw [memOk_iff] at h ⊢
  exact ⟨h.1, h.2.1, map_wf_filter h.2.2 _⟩

/-- Lines of the landing store counted. -/
theorem memOk_lsWritten {s : State} (h : s.memOk = true) (l : List Nat) : (s.lsWritten l).memOk = true := h

/-- A register written. -/
theorem memOk_setRegF {s : State} (h : s.memOk = true) (o hi lo v : Nat) : (s.setRegF o hi lo v).memOk = true :=
  memOk_of_eq h (setRegF_mem _ _ _ _ _) (setRegF_nv _ _ _ _ _)

@[simp] theorem sendTo_mem (s : State) (m : Nat) : (s.sendTo m).mem = s.mem := by
  unfold State.sendTo; simp only; split
  · simp [State.countCwy, State.tick1]
  · rfl
@[simp] theorem sendTo_nv (s : State) (m : Nat) : (s.sendTo m).nv = s.nv := by
  unfold State.sendTo; simp only; split
  · simp [State.countCwy, State.tick1]
  · rfl

/-- A message sent. -/
theorem memOk_sendTo {s : State} (h : s.memOk = true) (m : Nat) : (s.sendTo m).memOk = true :=
  memOk_of_eq h (sendTo_mem _ _) (sendTo_nv _ _)

/-- Messages sent. -/
theorem memOk_sends {s : State} (h : s.memOk = true) (l : List Nat) : (l.foldl State.sendTo s).memOk = true := by
  induction l generalizing s with
  | nil => exact h
  | cons m r ih => exact ih (memOk_sendTo h m)

@[simp] theorem pmEvent_mem (s : State) (p b : Nat) : (s.pmEvent p b).mem = s.mem := by
  unfold State.pmEvent; simp only; split
  · simp
  · split
    · simp
    · split <;> simp
@[simp] theorem pmEvent_nv (s : State) (p b : Nat) : (s.pmEvent p b).nv = s.nv := by
  unfold State.pmEvent; simp only; split
  · simp
  · split
    · simp
    · split <;> simp

/-- A line written to its expander. -/
theorem memOk_mediaWrite {s : State} (h : s.memOk = true) (key dev : Nat) (data : List Byte) (poison : Bool) :
    (s.mediaWrite key dev data poison).memOk = true := by
  rw [memOk_iff] at h ⊢
  exact ⟨h.1, memory_wf_setBytes h.2.1 _ _, h.2.2⟩

/-- A write parked, or held. -/
theorem memOk_park {s : State} (h : s.memOk = true) (p : Nat) (w : Park) : (s.park p w).memOk = true := by
  have hc : (s.countPm p 0x07 1).memOk = true := memOk_of_eq h (by simp) (by simp)
  unfold State.park
  simp only
  split
  · refine memOk_setRegF (memOk_lsWritten (memOk_lsForget ?_ (inPark p (s.nv.parks.get p []).length)) _) _ _ _ _
    rw [memOk_iff] at hc ⊢
    exact hc
  · refine memOk_of_eq (s := s.countPm p 0x07 1) hc ?_ ?_
    · rw [pmEvent_mem]
    · rw [pmEvent_nv]

/-- A line sent home. -/
theorem memOk_writeHome {s : State} (h : s.memOk = true) (r : LineRef) (scratch : Bool) : (s.writeHome r scratch).memOk = true := by
  unfold State.writeHome
  split
  · exact memOk_sendTo h _
  · simp only
    split
    · exact memOk_mediaWrite (memOk_of_eq h (by simp) (by simp)) _ _ _ _
    · exact memOk_park h _ _

/-- A line whose data another module returns. -/
theorem memOk_freeLine {s : State} (h : s.memOk = true) (key : Nat) : (s.freeLine key).memOk = true := by
  unfold State.freeLine
  generalize (List.range 256).map (Config.freeByte s.free) = l
  rw [memOk_iff] at h ⊢
  exact ⟨memory_wf_setBytes h.1 _ _, h.2⟩

/-- A parked write changed. -/
theorem memOk_setPark {s : State} (h : s.memOk = true) (p k : Nat) (f : Park → Park) : (s.setPark p k f).memOk = true := by
  unfold State.setPark
  simp only
  split
  · exact h
  · exact h

/-- A slot replaced. -/
theorem memOk_setSlotA {s : State} (h : s.memOk = true) (x : Slot) : State.memOk { s with nv := { s.nv with slotA := x } } = true := h
theorem memOk_setSlotB {s : State} (h : s.memOk = true) (x : Slot) : State.memOk { s with nv := { s.nv with slotB := x } } = true := h

/-- The journal replaced. -/
theorem memOk_setJournal {s : State} (h : s.memOk = true) (j : Map Jent) :
    State.memOk { s with nv := { s.nv with journal := j } } = true := h

/-- A byte stored into the record of the landing store that gives it. -/
theorem memOk_lsPutKnown {s : State} (h : s.memOk = true) (off : Nat) (b : Byte) : (s.lsPutKnown off b).memOk = true := by
  unfold State.lsPutKnown
  split
  · exact memOk_setPark h _ _ _
  · exact memOk_setPark h _ _ _
  · exact memOk_setJournal h _
  · exact memOk_setSlotA h _
  · exact memOk_setSlotB h _
  · exact h

/-- A byte stored through a landing-store window. -/
theorem memOk_lsPut {s : State} (h : s.memOk = true) (off : Nat) (b : Byte) : (s.lsPut off b).memOk = true := by
  unfold State.lsPut
  split
  · exact h
  · have h1 := memOk_lsPutKnown h off b
    rw [memOk_iff] at h1 ⊢
    exact ⟨h1.1, h1.2.1, map_wf_put h1.2.2 _ _⟩

/-- Power lost: the expanders keep what they hold. -/
theorem memOk_powerLoss {s : State} (h : s.memOk = true) : s.powerLoss.memOk = true := by
  rw [memOk_iff] at h ⊢
  exact ⟨h.2.1, h.2.1, h.2.2⟩

/-! ## Accesses of agents without caches -/

@[simp] theorem setMan_mem (s : State) (n : Nat) (e : Man) : (s.setMan n e).mem = s.mem := by
  unfold State.setMan; simp only; split <;> split <;> rfl
@[simp] theorem setMan_nv (s : State) (n : Nat) (e : Man) : (s.setMan n e).nv = s.nv := by
  unfold State.setMan; simp only; split <;> split <;> rfl
@[simp] theorem loseResv_mem (s : State) (n : LpId) (k : Nat) : (s.loseResv n k).mem = s.mem := by
  unfold State.loseResv; split <;> rfl
@[simp] theorem loseResv_nv (s : State) (n : LpId) (k : Nat) : (s.loseResv n k).nv = s.nv := by
  unfold State.loseResv; split <;> rfl

/-- A fold whose every step leaves memory and what is kept without power leaves them. -/
theorem foldl_mem_nv {α : Type} (f : State → α → State) (hm : ∀ s a, (f s a).mem = s.mem) (hn : ∀ s a, (f s a).nv = s.nv)
    (l : List α) (s : State) : (l.foldl f s).mem = s.mem ∧ (l.foldl f s).nv = s.nv := by
  induction l generalizing s with
  | nil => exact ⟨rfl, rfl⟩
  | cons a r ih => exact ⟨(ih (f s a)).1.trans (hm s a), (ih (f s a)).2.trans (hn s a)⟩

theorem loseResvOthers_mem_nv (s : State) (self k : Nat) :
    (s.loseResvOthers self k).mem = s.mem ∧ (s.loseResvOthers self k).nv = s.nv := by
  unfold State.loseResvOthers
  exact foldl_mem_nv _ (fun s a => by split <;> simp) (fun s a => by split <;> simp) _ s

theorem snoopOne_mem_nv (s : State) (k : Snoop) (a n : Nat) : (s.snoopOne k a n).mem = s.mem ∧ (s.snoopOne k a n).nv = s.nv := by
  unfold State.snoopOne
  simp only
  split
  · have := foldl_mem_nv (fun (s : State) m => s.loseResv m n) (fun s a => by simp) (fun s a => by simp)
    constructor
    · rw [(this _ _).1]; simp [State.countCl]
    · rw [(this _ _).2]; simp [State.countCl]
  · simp [State.countCl]

theorem snoopAll_mem_nv (s : State) (k : Snoop) (self n : Nat) :
    (s.snoopAll k self n).mem = s.mem ∧ (s.snoopAll k self n).nv = s.nv := by
  unfold State.snoopAll
  exact foldl_mem_nv (fun s (a : Nat × CLine) => s.snoopOne k a.1 n) (fun s a => (snoopOne_mem_nv s k a.1 n).1)
    (fun s a => (snoopOne_mem_nv s k a.1 n).2) _ s

theorem memOk_setMan {s : State} (h : s.memOk = true) (n : Nat) (e : Man) : (s.setMan n e).memOk = true := memOk_of_eq h (setMan_mem _ _ _) (setMan_nv _ _ _)

/-- What the snoops to other modules leave in the manifest. -/
theorem memOk_snoopRemote {s : State} (h : s.memOk = true) (k : Snoop) (r : LineRef) (n : Nat) :
    (s.snoopRemote k r n).memOk = true := by
  unfold State.snoopRemote
  simp only
  split
  · exact h
  · cases k <;> first | exact h | exact memOk_setMan h _ _

/-- The free answer of other modules, with their data. -/
theorem memOk_askRemote {s : State} (h : s.memOk = true) (r : LineRef) (n : Nat) : (s.askRemote r n).2.memOk = true := by
  unfold State.askRemote
  extract_lets may named v
  have h1 : v.memOk = true := memOk_sends h _
  clear_value v
  split
  · exact h1
  · split
    · simp only
      split
      · exact h1
      · exact memOk_freeLine h1 _
    · exact h1

/-- The home's own read of a line. -/
theorem memOk_readHome {s : State} (h : s.memOk = true) (r : LineRef) (n : Nat) (scrub : Bool) :
    (s.readHome r n scrub).2.memOk = true := by
  have hc : (s.countPm r.port 0x02 1).memOk = true := memOk_of_eq h (by simp) (by simp)
  unfold State.readHome
  simp only
  split
  · exact hc
  · rw [memOk_iff] at hc ⊢
    simpa [State.pmErr] using hc
  · rw [memOk_iff] at hc ⊢
    simpa [State.pmErr] using hc

/-- The data of a request. -/
theorem memOk_fetchLine {s t : State} {f : Found} (h : s.memOk = true) {r : LineRef} {n : Nat} (e : s.fetchLine r n = .ok f t) :
    t.memOk = true := by
  unfold State.fetchLine at e
  split at e
  · simp only at e
    split at e
    · cases e; exact memOk_sendTo h _
    · cases e; exact memOk_freeLine (memOk_sendTo h _) _
  · split at e
    · cases e; exact h
    · have ha := memOk_askRemote h r n
      cases hx : s.askRemote r n with
      | mk d u =>
        rw [hx] at ha
        simp only [hx] at e
        split at e
        · cases e; exact ha
        · split at e
          · cases e
          · have := memOk_readHome ha r n false
            cases hr : u.readHome r n false
            simp only [hr] at e
            cases e
            rw [hr] at this
            exact this

/-- A full-line write of an agent without a cache. -/
theorem memOk_writeFull {s t : State} (h : s.memOk = true) {self n : Nat} {data : List Byte} {poison scratch : Bool}
    (e : s.writeFull self n data poison scratch = .ok () t) : t.memOk = true := by
  unfold State.writeFull at e
  split at e
  · cases e
  · split at e
    · cases e
    · rename_i r _ _
      have h1 := memOk_snoopRemote h .invf r n
      obtain ⟨a1, a2⟩ := snoopAll_mem_nv (s.snoopRemote .invf r n) .invf self n
      obtain ⟨b1, b2⟩ := loseResvOthers_mem_nv ((s.snoopRemote .invf r n).snoopAll .invf self n) self n
      have h2 := memOk_of_eq h1 (b1.trans a1) (b2.trans a2)
      generalize ((s.snoopRemote .invf r n).snoopAll .invf self n).loseResvOthers self n = v at e h2
      cases e
      refine memOk_writeHome ?_ _ _
      rw [memOk_iff] at h2 ⊢
      exact ⟨memory_wf_setBytes h2.1 _ _, h2.2⟩

/-- A partial write of an agent without a cache. -/
theorem memOk_writePartial {s t : State} (h : s.memOk = true) {self n off : Nat} {data : List Byte}
    (e : s.writePartial self n off data = .ok () t) : t.memOk = true := by
  unfold State.writePartial at e
  split at e
  · cases e
  · split at e
    · cases e
    · split at e
      · cases e
      · rename_i r _ _ _
        split at e
        · cases e
        · cases e
        · rename_i f u hf
          have h1 := memOk_snoopRemote (memOk_fetchLine h hf) .inv r n
          obtain ⟨a1, a2⟩ := snoopAll_mem_nv (u.snoopRemote .inv r n) .inv self n
          obtain ⟨b1, b2⟩ := loseResvOthers_mem_nv ((u.snoopRemote .inv r n).snoopAll .inv self n) self n
          have h2 := memOk_of_eq h1 (b1.trans a1) (b2.trans a2)
          generalize ((u.snoopRemote .inv r n).snoopAll .inv self n).loseResvOthers self n = v at e h2
          cases e
          refine memOk_writeHome ?_ _ _
          rw [memOk_iff] at h2 ⊢
          exact ⟨memory_wf_setBytes h2.1 _ _, h2.2⟩

/-- A read of an agent without a cache. -/
theorem memOk_readCur {s t : State} (h : s.memOk = true) {n off k : Nat} {d : List Byte × Found}
    (e : s.readCur n off k = .ok d t) : t.memOk = true := by
  unfold State.readCur at e
  split at e
  · cases e
  · split at e
    · cases e
    · split at e
      · cases e
      · cases e
      · rename_i hf
        cases e
        exact memOk_fetchLine h hf

/-- Bytes poked into a line. -/
theorem memOk_pokeLine {s : State} (h : s.memOk = true) (r : LineRef) (off : Nat) (data : List Byte) :
    (s.pokeLine r off data).memOk = true := by
  rw [memOk_iff] at h ⊢
  exact ⟨memory_wf_setBytes h.1 _ _, h.2⟩

/-- The memory of the reset state is in canonical form. -/
theorem memOk_reset : State.reset.memOk = true := rfl

end Sys2Proof.Machine
end

