-- ==== Sys2Proof/Laws/Run.lean ====
section
/-! SUPPORT. What starting an instruction, running its body and retiring it can do. -/

namespace Sys2Proof.Machine

/-- Where no item of R145 is due, no checkpoint error is. -/
theorem ckptDue_of_not_due {s : State} {lp : LpId} (h : ¬ s.boundaryDue lp = true) : s.ckptDue lp = false := by
  cases hc : s.ckptDue lp
  · rfl
  · exact absurd (by simp [State.boundaryDue, State.asyncItem, hc]) h

/-- Once an instruction has begun, its frame runs the body in the state the start leaves. -/
theorem runIn_begun {β : Type} {s s1 : State} {compat : Bool} {lp : LpId} {words need : Nat}
    (h : s.begun compat lp words need = some s1) (iw : Word) (body : Act β) (fin : β → State → Option State) :
    s.runIn compat lp words iw need body fin =
      (match body.run s1 with
      | .error .stall _ => s
      | .error .wait s2 => s2.waitHere lp 8
      | .error (.exc e) s2 => s2.takeException lp (excAt s2 lp e iw)
      | .error (.lock a) s2 => s2.lockRfl lp a
      | .ok b s2 => (fin b s2).getD s) := by
  unfold State.begun at h
  split at h
  · cases h
  rename_i h0
  simp only [not_or] at h0
  obtain ⟨hr, hc, hd, hm, ha⟩ := h0
  simp only at h
  split at h
  · cases h
  rename_i h1
  split at h
  · rename_i u s1' hf
    cases h
    have ha' : (s.lp lp).abandoned = none := by simpa using ha
    unfold State.runIn
    rw [if_neg (by simp only [not_or]; exact ⟨hr, hm⟩), ha']
    simp only [ckptDue_of_not_due hd, Bool.false_eq_true, if_false]
    rw [if_neg (by simp only [not_or]; exact ⟨hc, hd⟩), if_neg h1, hf]
    all_goals rfl
  · cases h

/-- The same with the checks every instruction of the architecture makes first. -/
theorem runIn_start {β : Type} {s s1 : State} {i : Instr} {lp : LpId} {need : Nat} (h : s.startOf i lp need = some s1)
    (iw : Word) (body : Act β) (fin : β → State → Option State) :
    s.runIn false lp (encode i).length iw need (do issueCheck i lp; body) fin =
      (match body.run s1 with
      | .error .stall _ => s
      | .error .wait s2 => s2.waitHere lp 8
      | .error (.exc e) s2 => s2.takeException lp (excAt s2 lp e iw)
      | .error (.lock a) s2 => s2.lockRfl lp a
      | .ok b s2 => (fin b s2).getD s) := by
  unfold State.startOf at h
  split at h
  · rename_i s1' hb
    split at h
    · cases h
    · rename_i h2
      cases h
      have hc : (do issueCheck i lp; body : Act β).run s1 = body.run s1 := by
        simp only [not_or, Bool.not_eq_true] at h2
        simp [issueCheck, require, h2.1, h2.2]
      rw [runIn_begun hb, hc]
  · cases h

/-- An ordinary instruction whose body ends well retires. -/
theorem runLp_ok {s s1 s2 : State} {i : Instr} {lp : LpId} {need : Nat} {body : Act Unit}
    (h : s.startOf i lp need = some s1) (hb : body.run s1 = .ok () s2) :
    runLp i lp need body s = .next (s2.retire lp) := by
  simp only [runLp, State.runInstr, State.runWith]
  rw [runIn_start h, hb]
  rfl

/-- An ordinary instruction whose body raises an exception takes it, with the instruction as its saved PC. -/
theorem runLp_exc {s s1 s2 : State} {i : Instr} {lp : LpId} {need : Nat} {body : Act Unit} {e : Exc}
    (h : s.startOf i lp need = some s1) (hb : body.run s1 = .error (.exc e) s2) :
    runLp i lp need body s = .next (s2.takeException lp (excAt s2 lp e (iwordOf i))) := by
  simp only [runLp, State.runInstr, State.runWith]
  rw [runIn_start h, hb]

/-- An instruction that acts outside the twin acts once its window has matched and its stores have left; it waits while one of them
does. -/
theorem runLpSync_ok {s s1 s2 : State} {i : Instr} {lp : LpId} {need reason : Nat} {body : Act (State → State)}
    {post : State → State} (h : s.startOf i lp need = some s1) (hb : body.run s1 = .ok post s2)
    (hi : (s2.retire lp).injectDue lp = false) :
    runLpSync i lp need reason body s =
      .next (if ((s2.retire lp).syncWin lp reason).released lp then post ((s2.retire lp).syncWin lp reason) else s) := by
  simp only [runLpSync, State.runSync, State.runWith]
  rw [runIn_start h, hb]
  simp only [finSync, hi, Bool.false_eq_true, false_and, if_false]
  split <;> rfl

/-- An instruction with something left to do once it has retired does it. -/
theorem runLpPost_ok {s s1 s2 : State} {i : Instr} {lp : LpId} {need : Nat} {body : Act (State → State)}
    {post : State → State} (h : s.startOf i lp need = some s1) (hb : body.run s1 = .ok post s2) :
    runLpPost i lp need body s = .next (post (s2.retire lp)) := by
  simp only [runLpPost, State.runPost, State.runWith]
  rw [runIn_start h, hb]
  rfl

/-! ## Retiring -/

/-- What a retirement leaves of the slip: all but its shadow. -/
@[simp] theorem slip_retire (s : State) (lp : LpId) :
    (s.retire lp).slip lp = { s.slip lp with shadow := (s.slip lp).shadow - (if (s.slip lp).shadow = 0 then 0 else 1) } := by
  simp [State.retire, State.retireLp, State.retireWin, vget_set]
  congr

/-- The fields of State a retirement leaves. -/
@[simp] theorem retire_mem (s : State) (lp : LpId) : (s.retire lp).mem = s.mem := by simp [State.retire, State.retireLp, State.retireWin]
@[simp] theorem retire_nv (s : State) (lp : LpId) : (s.retire lp).nv = s.nv := by simp [State.retire, State.retireLp, State.retireWin]
@[simp] theorem retire_std (s : State) (lp : LpId) : (s.retire lp).std = s.std := by simp [State.retire, State.retireLp, State.retireWin]
@[simp] theorem retire_pwr (s : State) (lp : LpId) : (s.retire lp).pwr = s.pwr := by simp [State.retire, State.retireLp, State.retireWin]
@[simp] theorem retire_pending (s : State) (lp : LpId) : (s.retire lp).pending = s.pending := by
  simp [State.retire, State.retireLp, State.retireWin]
@[simp] theorem retire_regs (s : State) (lp : LpId) : (s.retire lp).live.regs = s.live.regs := by
  simp [State.retire, State.retireLp, State.retireWin]
@[simp] theorem retire_caches (s : State) (lp : LpId) : (s.retire lp).vol.caches = s.vol.caches := by
  simp [State.retire, State.retireLp, State.retireWin]

theorem lp_retire_ne (s : State) (lp m : LpId) (h : m ≠ lp) : (s.retire lp).lp m = s.lp m := by
  simp [State.retire, State.retireLp, State.retireWin, Ne.symm h]
theorem lpv_retire_ne (s : State) (lp m : LpId) (h : m ≠ lp) : (s.retire lp).lpv m = s.lpv m := by
  simp [State.retire, State.retireLp, State.retireWin, Ne.symm h]
theorem lp_retire (s : State) (lp : LpId) :
    (s.retire lp).lp lp = { s.lp lp with slips := ((s.retire lp).lp lp).slips, stepDue := ((s.retire lp).lp lp).stepDue } := by
  simp [State.retire, State.retireLp, State.retireWin]
theorem run_retire (s : State) (lp : LpId) : ((s.retire lp).lp lp).run = (s.lp lp).run := by
  rw [lp_retire]
theorem slipN_retire (s : State) (lp : LpId) (k : Fin 8) (h : k ≠ (s.lp lp).run) :
    (s.retire lp).slipN lp k = s.slipN lp k := by
  simp [State.retire, State.retireLp, State.retireWin, State.slipN, vget_set, Ne.symm h]
theorem gangway_retire (s : State) (lp : LpId) : ((s.retire lp).lpv lp).gangway = (s.lpv lp).gangway := by
  simp only [State.retire, State.retireLp, State.retireWin, LpVol.gangway]
  cases h : (s.lpv lp).win <;> simp
theorem resv_retire (s : State) (lp : LpId) : ((s.retire lp).lpv lp).resv = (s.lpv lp).resv := by
  simp [State.retire, State.retireLp, State.retireWin]


/-! ## Nothing but one LP differs -/

theorem onlyLp_refl (s : State) (lp : LpId) : s.onlyLp s lp := ⟨rfl, fun _ _ => ⟨rfl, rfl⟩⟩

theorem onlyLp_trans {s t u : State} {lp : LpId} (h : s.onlyLp t lp) (k : t.onlyLp u lp) : s.onlyLp u lp := by
  refine ⟨k.1.trans (by rw [h.1]), fun m hm => ⟨(k.2 m hm).1.trans (h.2 m hm).1, (k.2 m hm).2.trans (h.2 m hm).2⟩⟩

theorem onlyLp_setLp (s : State) (lp : LpId) (l : Lp) : s.onlyLp (s.setLp lp l) lp :=
  ⟨rfl, fun m hm => ⟨by simp [Ne.symm hm], rfl⟩⟩

theorem onlyLp_setLpv (s : State) (lp : LpId) (v : LpVol) : s.onlyLp (s.setLpv lp v) lp :=
  ⟨rfl, fun m hm => ⟨rfl, by simp [Ne.symm hm]⟩⟩

theorem onlyLp_bumpOne (s : State) (lp : LpId) (i c n : Nat) : s.onlyLp (s.bumpOne i c n) lp := by
  unfold State.bumpOne
  simp only
  split
  · exact ⟨rfl, fun _ _ => ⟨rfl, rfl⟩⟩
  · exact onlyLp_refl _ _

theorem onlyLp_countFrom (s : State) (lp : LpId) (b c n : Nat) : ∀ k, s.onlyLp (s.countFrom b c n k) lp
  | 0 => onlyLp_refl _ _
  | k + 1 => onlyLp_trans (onlyLp_countFrom s lp b c n k) (onlyLp_bumpOne _ _ _ _ _)

theorem onlyLp_count (s : State) (lp : LpId) (b c n k : Nat) : s.onlyLp (s.count b c n k) lp := by
  unfold State.count
  split
  · exact onlyLp_refl _ _
  · exact onlyLp_countFrom _ _ _ _ _ _

/-! ## What `onlySlip` and `retiresAs` say of the updates an instruction's body makes -/

theorem onlySlip_refl (s : State) (lp : LpId) : s.onlySlip s lp [] :=
  ⟨onlyLp_refl _ _, rfl, fun _ _ => rfl, rfl, by simp⟩

theorem onlySlip_trans {s t u : State} {lp : LpId} {g h : List GStore} (a : s.onlySlip t lp g) (b : t.onlySlip u lp h) :
    s.onlySlip u lp (g ++ h) := by
  obtain ⟨a1, a2, a3, a4, a5⟩ := a
  obtain ⟨b1, b2, b3, b4, b5⟩ := b
  refine ⟨onlyLp_trans a1 b1, b2.trans (by rw [a2]), ?_, b4.trans (by rw [a4]), by rw [b5, a5, List.append_assoc]⟩
  intro k hk
  rw [b3 k (by rw [a2]; exact hk), a3 k hk]

theorem onlySlip_setSlip (s : State) (lp : LpId) (x : Slip) : s.onlySlip (s.setSlip lp x) lp [] := by
  refine ⟨onlyLp_setLp _ _ _, by simp, ?_, rfl, ?_⟩
  · intro k hk; simp [State.slipN, vget_set, Ne.symm hk]
  · simp only [List.append_nil]; rfl

theorem onlySlip_item (s : State) (lp : LpId) (k n : Nat) (w : List Word) : s.onlySlip (s.item lp k n w) lp [] := by
  refine ⟨onlyLp_setLpv _ _ _, rfl, fun _ _ => rfl, by simp, by simp [LpVol.gangway]⟩

theorem onlySlip_setG (s : State) (lp : LpId) (r : Reg) (v : Word) : s.onlySlip (s.setG lp r v) lp [] :=
  onlySlip_trans (onlySlip_setSlip _ _ _) (onlySlip_item _ _ _ _ _)
theorem onlySlip_setF (s : State) (lp : LpId) (r : Reg) (v : Word) : s.onlySlip (s.setF lp r v) lp [] :=
  onlySlip_trans (onlySlip_setSlip _ _ _) (onlySlip_item _ _ _ _ _)
theorem onlySlip_setB (s : State) (lp : LpId) (r : BankNo) (a b : Word) : s.onlySlip (s.setB lp r a b) lp [] :=
  onlySlip_trans (onlySlip_setSlip _ _ _) (onlySlip_item _ _ _ _ _)
theorem onlySlip_setPc (s : State) (lp : LpId) (v : Word) : s.onlySlip (s.setPc lp v) lp [] := onlySlip_setSlip _ _ _

theorem onlySlip_countLp (s : State) (lp : LpId) (c n : Nat) : s.onlySlip (s.countLp lp c n) lp [] :=
  ⟨onlyLp_count _ _ _ _ _ _, by simp, by simp, by simp, by simp⟩

theorem onlySlip_retire (s : State) (lp : LpId) : s.onlySlip (s.retire lp) lp [] := by
  refine ⟨?_, lp_retire s lp, slipN_retire s lp, ?_, by simpa using gangway_retire s lp⟩
  · exact onlyLp_trans (onlyLp_setLpv _ _ _) (onlyLp_trans (onlyLp_setLp _ _ _) (onlyLp_trans (onlyLp_setLp _ _ _)
      (onlyLp_count _ _ _ _ _ _)))
  · simp [State.retire, State.retireLp, State.retireWin]

/-- A body that only changes the running slip, then retires: what `retiresAs` says of it. -/
theorem retiresAs_of {s s2 : State} {lp : LpId} {g : List GStore} {f : Slip → Slip} (h : s.onlySlip s2 lp g)
    (hx : ∃ d, s2.slip lp = { f (s.slip lp) with dirty := d }) : s.retiresAs (s2.retire lp) lp g f := by
  obtain ⟨d, hd⟩ := hx
  exact ⟨by simpa using onlySlip_trans h (onlySlip_retire s2 lp), d, _, by rw [slip_retire, hd]⟩

/-- An instruction with one general result. -/
theorem retiresAs_setG (s : State) (lp : LpId) (d : Reg) (v p : Word) :
    s.retiresAs (((s.setG lp d v).setPc lp p).retire lp) lp [] (fun x => { x with g := x.g.set d.val v d.isLt, pc := p }) :=
  retiresAs_of (onlySlip_trans (onlySlip_setG _ _ _ _) (onlySlip_setPc _ _ _)) ⟨_, by rw [slip_setPc, slip_setG]⟩

/-- An instruction with one floating result. -/
theorem retiresAs_setF (s : State) (lp : LpId) (d : Reg) (v p : Word) :
    s.retiresAs (((s.setF lp d v).setPc lp p).retire lp) lp [] (fun x => { x with f := x.f.set d.val v d.isLt, pc := p }) :=
  retiresAs_of (onlySlip_trans (onlySlip_setF _ _ _ _) (onlySlip_setPc _ _ _)) ⟨_, by rw [slip_setPc, slip_setF]⟩

/-- An instruction that only moves on. -/
theorem retiresAs_setPc (s : State) (lp : LpId) (p : Word) :
    s.retiresAs ((s.setPc lp p).retire lp) lp [] (fun x => { x with pc := p }) :=
  retiresAs_of (onlySlip_setPc _ _ _) ⟨_, by rw [slip_setPc]⟩

/-- A taken branch, with its signature item. -/
theorem retiresAs_jump (s : State) (lp : LpId) (p : Word) (k n : Nat) (w : List Word) :
    s.retiresAs (((s.setPc lp p).item lp k n w).retire lp) lp [] (fun x => { x with pc := p }) :=
  retiresAs_of (onlySlip_trans (onlySlip_setPc _ _ _) (onlySlip_item _ _ _ _ _)) ⟨_, by rw [slip_item, slip_setPc]⟩

end Sys2Proof.Machine
end

