-- ==== Sys2Proof/Tests/Slice0.lean ====
section
/-! SUPPORT. Small tests: the operand checks refuse ill-formed commands, a few encodings, and for each statement with hypotheses a
concrete state and operands that meet them (its witness; a witness has one conjunct per clause). -/

namespace Sys2Proof.Tests

open Sys2Proof Sys2Proof.Machine

set_option Elab.async false

/-! ## Small states -/

/-- An LP in K with its banks over the first 64 KiB of memory, G1 to G6 set and a stack pointer. -/
def lp0 : Lp :=
  let l := Lp.fresh 0
  let x := l.slips.get 0
  let b1 : Bank := ⟨0x10017, 0xFFFF⟩
  let g := ((((((x.g.set 1 0x40).set 2 0x1122334455667788).set 3 0x40).set 4 0).set 5 0xFFFFFFFFFFFFFFFF).set 6 0x8000000000000000).set 31 0x1000
  { l with zx := l.zx.set 0 ⟨1, 0, 0x20000⟩, slips := l.slips.set 0 { x with b := ((x.b.set 0 ⟨0x1B, 0xFFFF⟩).set 1 b1).set 14 b1, g := g } }

/-- The module in RUN with one LP that can run, one port up and 4 GiB of memory decked. -/
def s0 : State := { State.reset with
  std := { State.reset.std with fc := [], pwrgood := true }
  pwr := { State.reset.pwr with phase := .running, lpsOn := true }
  live := { State.reset.live with lps := State.reset.live.lps.set 0 lp0, sets := [⟨[0], 4096, 4, 0, 0⟩], regs := [(0x200000, 2)] } }

/-- That module with LP 0 changed. -/
def onLp (f : Lp → Lp) (s : State := s0) : State := s.setLp 0 (f (s.lp 0))

/-- That module with what LP 0 has in flight changed. -/
def onLpv (f : LpVol → LpVol) (s : State := s0) : State := s.setLpv 0 (f (s.lpv 0))

/-- That module with the running slip of LP 0 changed. -/
def onSlip (f : Slip → Slip) (s : State := s0) : State := s.setSlip 0 (f (s.slip 0))

/-- That module with LP 0 at a level. -/
def atLevel (n : BitVec 2) : State := onSlip (fun x => { x with level := n })

/-- That module with G1 of LP 0 set. -/
def withG1 (v : Word) : State := onSlip (fun x => { x with g := x.g.set 1 v })

/-- Whether instruction `i` of LP 0 begins in `s` with `p`. -/
def begins (s : State) (i : Instr) (need : Nat := 0) (p : State → Bool := fun _ => true) : Bool :=
  match s.startOf i 0 need with
  | some s1 => p s1 && !s1.injectDue 0
  | none => false

/-- Whether an access forms as no device access, its pieces with `p`. -/
def forms (s : State) (b : BankNo) (o : Word) (n : Nat) (k : AKind) (size : Nat) (p : List (Nat × Nat) → Bool := fun _ => true) : Bool :=
  match s.formAccess 0 b o n k size with
  | .ok l => !s.isDevice 0 b l && p l
  | .error _ => false

/-- Whether a read of pieces is answered, its bytes and the state after with `p`. -/
def answered (s : State) (b : BankNo) (o fi : Word) (l : List (Nat × Nat)) (p : List Byte → State → Bool := fun _ _ => true) : Bool :=
  match (readFormed 0 b o fi l).run s with
  | .ok d t => p d t
  | .error _ _ => false

/-- Whether checking is on and a window is open. -/
def checks (s : State) : Bool := !(s.lpv 0).unchecked && (s.lpv 0).win.isSome

/-! ## Operand checks -/

/-- Each check of the operands refuses an ill-formed command (R98, R109, R111, R121, R128, R250, R251, R255). -/
theorem test_ill_formed_refused :
    [Instr.ldpair 0 1 0 0 (.short 0), .stpair 0 3 0 0 (.short 0), .cas 0 5 0 0 true, .pka 0 1 2 4 3, .pka 0 2 3 4 3, .pka 0 2 4 5 3,
      .pka 0 2 4 6 0, .pks 0 1 2 4 3, .pks 0 2 4 6 0, .movl 0 1 1 2 0 0, .cmpl 0 1 2 1 0 0, .trnl 0 1 2 2 0 0, .cksm 0 1 1 2 0 0,
      .cksm 0 1 2 3 1 0, .mtb 0 0 1, .mfb 0 3 0, .cwb 0 1 1 0, .cinv 0 2 2 0, .clock 0 3 3 0 false, .cunlock 0 4 4 0 true,
      .wrinvf 0 0 [], .wrinvp 0 0 0 [], .wrinvp 0 0 255 [1, 2], .wbk 0 0 [1] false, .snoopResponse 0 0 .hit [1],
      .memoryReadData 0 0 (some [1]) none false].all (fun i => !i.wf) = true := by decide

/-- The nearest well-formed commands pass. -/
theorem test_well_formed_admitted :
    [Instr.ldpair 0 2 0 0 (.short 0), .cas 0 4 0 0 true, .pka 0 2 4 6 31, .movl 0 1 2 3 0 0, .cksm 0 1 2 3 0 5, .mtb 0 0 2,
      .cwb 0 1 2 0, .wrinvp 0 0 254 [1, 2], .snoopResponse 0 0 .miss [], .memoryReadData 0 0 none none false].all (fun i => i.wf) = true := by
  decide

/-! ## Encodings, from the tables of section 3 -/

/-- ADD is major 0x00, function 0x00 (R82, R99). -/
theorem test_add_word : decodeWords 0 0b00000000001000100001100000000000#32 0 = some (.add 0 1 2 3) := by decide
/-- DIV is major 0x01, function 0x04 (R103). -/
theorem test_div_word : decodeWords 0 0b00000100001000100001100000000100#32 0 = some (.div 0 1 2 3) := by decide
/-- ADDI's long form takes its displacement from the second word (R83, R101). -/
theorem test_addi_long_word : decodeWords 0 0b10100000001000100000000000000000#32 7 = some (.addi 0 1 2 (.long 7)) := by decide
/-- LDD through B1 (R83, R108). -/
theorem test_ldd_word : decodeWords 0 0b01001100001000100001100000000000#32 0 = some (.ldd 0 1 2 1 (.short 0x800)) := by decide
/-- BZ (R82, R102). -/
theorem test_bz_word : decodeWords 0 0b10000100001111111111111111111111#32 0 = some (.bz 0 1 0x1FFFFF) := by decide
/-- AADD of a doubleword through B7 (R111). -/
theorem test_aadd_word : decodeWords 0 0b00010000001000100011100000110011#32 0 = some (.aadd 0 1 2 7 true) := by decide
/-- FENCE (R133). -/
theorem test_fence_word : decodeWords 0 0b00011000000000000000000000000101#32 0 = some (.fence 0) := by decide
/-- The encoder and the decoder agree on instructions of the other families. -/
theorem test_words_agree :
    [Instr.callm 0 5 0xFFFF, .retm 0 1, .stpair 0 2 3 15 (.long 9), .fma 0 1 2 3 true, .pks 0 2 4 6 31, .movl 0 1 2 3 4 5, .mtc 0 63 1,
      .mfb 0 2 15, .lvc 0 2 0xFFFF, .rdslip 0 1 7 63, .spill 0 7, .ttbind 0 1 2 3, .cunlock 0 1 2 15 true, .czero 0 1 2, .rfl 0].all
      (fun i => decide (decodeWords 0 ((encode i).getD 0 0) ((encode i).getD 1 0) = some i)) = true := by decide

/-! ## Witnesses: instructions -/

theorem witness_integer_operations :
    [Instr.add 0 1 2 3, .sub 0 1 2 3, .and 0 1 2 3, .or 0 1 2 3, .xor 0 1 2 3, .andn 0 1 2 3, .sll 0 1 2 3, .srl 0 1 2 3, .sra 0 1 2 3,
      .ror 0 1 2 3, .cmpeq 0 1 2 3, .cmplt 0 1 2 3, .cmpltu 0 1 2 3, .sextb 0 1 2, .sexth 0 1 2, .sextw 0 1 2, .clz 0 1 2,
      .popc 0 1 2, .min 0 1 2 3, .max 0 1 2 3, .minu 0 1 2 3, .maxu 0 1 2 3].all (begins s0 ·) = true := by decide +kernel

theorem witness_multiply_and_divide :
    [Instr.mul 0 1 2 3, .mulh 0 1 2 3, .mulhu 0 1 2 3, .div 0 1 2 3, .divu 0 1 2 3, .rem 0 1 2 3, .remu 0 1 2 3].all
      (begins s0 · 0 (fun s => decide (s.g 0 3 ≠ 0))) = true := by decide +kernel

theorem witness_division_special_cases :
    ([Instr.div 0 1 2 4, .divu 0 1 2 4, .rem 0 1 2 4, .remu 0 1 2 4].all (begins s0 · 0 (fun s => decide (s.g 0 4 = 0))) &&
      [Instr.div 0 1 6 5, .rem 0 1 6 5].all (begins s0 · 0 (fun s =>
        decide (s.g 0 6 = 0x8000000000000000 ∧ s.g 0 5 = 0xFFFFFFFFFFFFFFFF)))) = true := by decide +kernel

theorem witness_immediate_forms :
    [Instr.addi 0 1 2 (.short 0xFFFF), .addi 0 1 2 (.long 0x80000000), .andi 0 1 2 (.short 1), .andi 0 1 2 (.long 1), .ori 0 1 2 (.short 1),
      .ori 0 1 2 (.long 1), .xori 0 1 2 (.short 1), .xori 0 1 2 (.long 1), .ldi 0 1 (.short 0x8000), .ldi 0 1 (.long 1),
      .shi 0 1 2 0 63, .shi 0 1 2 1 0, .shi 0 1 2 2 63, .shi 0 1 2 3 1].all (begins s0 ·) = true := by decide +kernel

theorem witness_branches :
    [Instr.br 0 0x1FFFFF, .bz 0 1 1, .bz 0 4 1, .bnz 0 1 1, .bltz 0 5 1, .bgez 0 5 1, .bal 0 31 1, .jmp 0 2, .dbnz 0 1 1].all
      (begins s0 ·) = true := by decide +kernel

theorem witness_callm_and_retm :
    (begins s0 (.callm 0 2 0) 4 (fun s => checks s && forms s 14 (s.g 0 31 - 16) 16 .write 7) &&
      begins s0 (.callm 0 2 0xFFFF) 4 (fun s => checks s && forms s 14 (s.g 0 31 - 144) 144 .write 7) &&
      begins s0 (.retm 0 0) 0 (fun s => forms s 14 (s.g 0 31) 8 .read 7 (fun lt => answered s 14 (s.g 0 31) (stepInfo 14 .read 8) lt (fun d s2 =>
        decide (leNat d % 2 ^ 64 = 0) && forms s 14 (s.g 0 31) 16 .read 7 (fun l =>
          answered s2 14 (s.g 0 31) (stepInfo 14 .read 16) l (fun _ s3 => decide (s3.slip 0 = s.slip 0)))))) &&
      begins s0 (.retm 0 1) 0 (fun s => forms s 14 (s.g 0 31) 8 .read 7 (fun lt => answered s 14 (s.g 0 31) (stepInfo 14 .read 8) lt (fun d _ =>
        decide (leNat d % 2 ^ 64 ≠ 1))))) = true := by decide +kernel

theorem witness_loads :
    (([Disp.short 0, .short 2, .long 0x20].flatMap (fun p => [(Instr.ldb 0 7 1 1 p, p, 1), (.ldh 0 7 1 1 p, p, 2), (.ldw 0 7 1 1 p, p, 4),
      (.ldd 0 7 1 1 p, p, 8), (.ldfs 0 7 1 1 p, p, 4), (.ldf 0 7 1 1 p, p, 8), (.ldpair 0 8 1 1 p, p, 16)])).all (fun p =>
        let n := p.2.2
        begins s0 p.1 0 (fun s =>
          let o := memOffset (s.g 0 1) n p.2.1
          decide (n = 16 → o.toNat % 16 = 0) && forms s 1 o n .read (sizeCode .read n) (fun l =>
            answered s 1 o (finfoOf 1 .read (sizeCode .read n) n 0 0 false) (s.asMade n l))))) = true := by decide +kernel

/-- That module with a line held by twin 0 in a state. -/
def holding (line : Nat) (st : CSt) (s : State := s0) (agent : Nat := 0) : State := s.setCline agent line { CLine.none with st := st, valid := 15 }

/-- One store in the gangway store buffer. -/
def st0 : GStore := ⟨0x10040, [1, 2, 3], true, 0, false, 0⟩

/-- LP 0 with a window open that holds `l`. -/
def inWindow (l : List GStore) (s : State := s0) : State :=
  onLpv (fun v => { v with win := some { Win.fresh (s.ckptOf 0 none) with retired := 1, stores := l } }) s

/-- Whether an action succeeds, the state after with `p`. -/
def doneAct (a : Act Unit) (s : State) (p : State → Bool) : Bool :=
  match a.run s with
  | .ok () t => p t
  | .error _ _ => false

theorem witness_reads_give_own_stores :
    (∀ p ∈ [(0x10040, 8), (0x10080, 4)], (holding 0x100 .e).holdsPiece 0 1 p) ∧
    ((inWindow [st0]).lpv 0).gangway = (s0.lpv 0).gangway ++ [st0] ∧ ∀ a, (inWindow [st0]).byteAt a = s0.byteAt a := by
  refine ⟨fun p h => ?_, by decide +kernel, fun _ => rfl⟩
  simp only [List.mem_cons, List.not_mem_nil, or_false] at h
  obtain rfl | rfl := h <;>
    exact ⟨by decide +kernel, by decide +kernel, by decide +kernel, by decide +kernel, ⟨0x100, true, 0, 0x10000⟩, by decide +kernel,
      by decide +kernel⟩

theorem witness_stores :
    (([Disp.short 0, .short 2, .long 0x20].flatMap (fun p => [(Instr.stb 0 2 1 1 p, p, 1), (.sth 0 2 1 1 p, p, 2), (.stw 0 2 1 1 p, p, 4),
      (.std 0 2 1 1 p, p, 8), (.stfs 0 2 1 1 p, p, 4), (.stf 0 2 1 1 p, p, 8), (.stpair 0 2 1 1 p, p, 16)])).all (fun p =>
        let n := p.2.2
        begins s0 p.1 2 (fun s =>
          let o := memOffset (s.g 0 1) n p.2.1
          checks s && decide (n = 16 → o.toNat % 16 = 0) && forms s 1 o n .write (sizeCode .write n))) &&
      begins (withG1 8) (.ldpair 0 2 1 1 (.short 0)) 0 (fun s => decide ((memOffset (s.g 0 1) 16 (.short 0)).toNat % 16 ≠ 0)) &&
      begins (withG1 8) (.stpair 0 2 1 1 (.long 7)) 2 (fun s => decide ((memOffset (s.g 0 1) 16 (.long 7)).toNat % 16 ≠ 0))) = true := by
  decide +kernel

theorem witness_atomics :
    ([false, true].all (fun dbl => [Instr.swap 0 2 1 1 dbl, .aadd 0 2 1 1 dbl, .aand 0 2 1 1 dbl, .aor 0 2 1 1 dbl, .axor 0 2 1 1 dbl,
        .cas 0 2 1 1 dbl, .cas 0 4 1 1 dbl].all (fun i =>
      let n := if dbl then 8 else 4
      let fi := finfoOf 1 .rmw (sizeCode .rmw n) n 0 0 false
      begins s0 i 2 (fun s => decide ((s.g 0 1).toNat % n = 0) && forms s 1 (s.g 0 1) n .rmw (sizeCode .rmw n) (fun l =>
        doneAct (acquireLine 0 1 (s.g 0 1) fi l) s (fun s2 => answered s2 1 (s.g 0 1) fi l (fun d s3 =>
          decide (s3.slip 0 = s.slip 0) && checks s3 && !s3.injectDue 0 && decide (leNat d < 2 ^ (8 * n) ∧ s.vol.caches.txns = [] ∧
            s.vol.caches.grants = []))))))) ) = true := by
  decide +kernel

theorem witness_reservations :
    (let fr (n : Nat) := finfoOf 1 .read (sizeCode .read n) n 0 0 false
     let fw (n : Nat) := finfoOf 1 .write (sizeCode .write n) n 0 0 false
     begins s0 (.lrsv 0 2 1 1 true) 0 (fun s => decide ((s.g 0 1).toNat % 8 = 0) &&
        forms s 1 (s.g 0 1) 8 .read (sizeCode .read 8) (fun l => !s.harbour &&
          decide ((s.cline (s.lp 0).twin.val ((l.headD (0, 0)).1 / 256)).st = .i) &&
          doneAct (acquireLine 0 1 (s.g 0 1) (fr 8) l) s (fun s2 =>
            answered s2 1 (s.g 0 1) (fr 8) l (fun _ s3 => decide (s3.harbour = s.harbour))))) &&
      begins (holding 0x100 .m) (.lrsv 0 2 1 1 false) 0 (fun s => decide ((s.g 0 1).toNat % 4 = 0) &&
        forms s 1 (s.g 0 1) 4 .read (sizeCode .read 4) (fun l => decide ((s.cline (s.lp 0).twin.val ((l.headD (0, 0)).1 / 256)).st = .m) &&
          answered s 1 (s.g 0 1) (fr 4) l (fun _ s3 => decide (s3.harbour = s.harbour)))) &&
      begins s0 (.stcond 0 2 1 1 true) 2 (fun s => decide ((s.g 0 1).toNat % 8 = 0) && forms s 1 (s.g 0 1) 8 .write (sizeCode .write 8) (fun l =>
        decide ((s.lpv 0).resv ≠ some ((l.headD (0, 0)).1 / 256) ∧ (s.lpv 0).gangway = []))) &&
      begins (onLpv (fun v => { v with resv := some 0x100 })) (.stcond 0 2 1 1 true) 2 (fun s => decide ((s.g 0 1).toNat % 8 = 0) &&
        forms s 1 (s.g 0 1) 8 .write (sizeCode .write 8) (fun l => !s.harbour &&
          decide ((s.lpv 0).resv = some ((l.headD (0, 0)).1 / 256) ∧ s.vol.caches.txns = [] ∧ s.vol.caches.grants = []) &&
          doneAct (acquireLine 0 1 (s.g 0 1) (fw 8) l) s (fun s2 => decide (s2.slip 0 = s.slip 0) && checks s2 && !s2.injectDue 0)))) = true := by
  decide +kernel

theorem witness_floating :
    (let ok (s : State) (f : Nat) : Bool := decide (bits (s.slip 0).fpsr 2 0 < 5 ∧ f &&& bits (s.slip 0).fpsr 20 16 = 0)
     [false, true].all (fun p =>
      [Instr.fadd 0 1 2 3 p, .fsub 0 1 2 3 p, .fmul 0 1 2 3 p, .fdiv 0 1 2 3 p, .fsqrt 0 1 2 p, .fma 0 1 2 3 p, .fms 0 1 2 3 p, .fnma 0 1 2 3 p,
        .fmin 0 1 2 3 p, .fmax 0 1 2 3 p, .fneg 0 1 2 p, .fabs 0 1 2 p, .fcmpeq 0 1 2 3 p, .fcmplt 0 1 2 3 p, .fcmple 0 1 2 3 p,
        .fclass 0 1 2 p, .fcvtf 0 1 2 p, .fcvti 0 1 2 p, .fcvtiu 0 1 2 p, .icvtf 0 1 2 p, .iucvtf 0 1 2 p, .movgf 0 1 2,
        .movfg 0 1 2].all (begins s0 · 0 (fun s => ok s 31)))) = true := by decide +kernel

/-- An addition of infinities of unlike sign with INVALID's trap enabled, and a NaN operand. -/
theorem witness_floating_traps :
    begins (onSlip (fun x => { x with f := (x.f.set 1 0x7FF0000000000000).set 2 0xFFF0000000000000, fpsr := BitVec.ofNat 64 (31 * 2 ^ 16) }))
      (.fadd 0 3 1 2 false) 0 (fun s => decide ((addFV (fmtOf false) (s.rmOf 0) (s.fv 0 false 1) (s.fv 0 false 2)).2.toNat &&&
        bits (s.slip 0).fpsr 20 16 ≠ 0)) = true ∧ (FV.decode (fmtOf true) 0x7FC00000).isNaN = true := by decide +kernel

theorem witness_packed_decimal :
    (let s := onSlip (fun x => { x with g := ((((x.g.set 4 0x12).set 5 0x0C00000000000000).set 9 0x1D00000000000000).set 10 0x0A).set 11 0x0C00000000000000 })
     [Instr.pka 0 2 4 8 31, .pks 0 2 4 8 1].all (begins s · 0 (fun s =>
        decide (badNibble (nibbles (s.g 0 4) (s.g 0 5)) = none ∧ badNibble (nibbles (s.g 0 8) (s.g 0 9)) = none))) &&
      [Instr.pka 0 2 10 4 5, .pks 0 2 10 4 5].all (begins s · 0 (fun s => decide (badNibble (nibbles (s.g 0 10) (s.g 0 11)) = some 1))) &&
      [Instr.pka 0 2 4 6 5, .pks 0 2 4 6 5].all (begins s · 0 (fun s => decide (badNibble (nibbles (s.g 0 4) (s.g 0 5)) = none ∧
        badNibble (nibbles (s.g 0 6) (s.g 0 7)) = some 31)))) = true := by
  decide +kernel

theorem witness_long_instructions :
    ([(Instr.movl 0 1 3 4 1 1, 64), (.cmpl 0 1 3 4 1 1, 0), (.trnl 0 1 3 4 1 1, 64), (.cksm 0 1 3 4 0 1, 0)].all (fun p =>
        begins s0 p.1 p.2 (fun s => decide (s.g 0 4 = 0))) &&
      (let s := onSlip (fun x => { x with g := ((x.g.set 7 0xFFE).set 8 0x2FF).set 9 4 })
       let bank (s : State) (o : Word) (m : Nat) (k : AKind) : Bool := match bankForm ((s.slip 0).b.get 1) o.toNat m k with | .ok _ => true | _ => false
       let ready (s s3 : State) : Bool := decide (s3.slip 0 = s.slip 0) && checks s3
       begins s (.movl 0 7 8 9 1 1) 64 (fun s => decide (s.g 0 9 ≠ 0) && bank s (s.g 0 7) 2 .write && bank s (s.g 0 8) 2 .read &&
         forms s 1 (s.g 0 7) 2 .write 7 (fun _ => forms s 1 (s.g 0 8) 2 .read 7 (fun ls =>
           answered s 1 (s.g 0 8) (stepInfo 1 .read 2) ls (fun _ s2 => ready s s2)))) &&
       begins s (.cmpl 0 7 8 9 1 1) 0 (fun s => decide (s.g 0 9 ≠ 0) && bank s (s.g 0 7) 2 .read && bank s (s.g 0 8) 2 .read &&
         forms s 1 (s.g 0 7) 2 .read 7 (fun ld => forms s 1 (s.g 0 8) 2 .read 7 (fun ls =>
           answered s 1 (s.g 0 7) (stepInfo 1 .read 2) ld (fun _ s2 => answered s2 1 (s.g 0 8) (stepInfo 1 .read 2) ls (fun _ s3 => ready s s3))))) &&
       begins s (.trnl 0 7 8 9 1 1) 64 (fun s => decide (s.g 0 9 ≠ 0) && bank s (s.g 0 7) 2 .rmw && bank s (s.g 0 8) 256 .read &&
         forms s 1 (s.g 0 7) 2 .rmw 7 (fun ld => forms s 1 (s.g 0 8) 256 .read 7 (fun ls =>
           answered s 1 (s.g 0 7) (stepInfo 1 .rmw 2) ld (fun _ s2 => answered s2 1 (s.g 0 8) (stepInfo 1 .read 256) ls (fun _ s3 => ready s s3))))) &&
       begins s (.cksm 0 7 8 9 0 1) 0 (fun s => decide (s.g 0 9 ≠ 0) && forms s 1 (s.g 0 8) 4 .read 7 (fun ls =>
           answered s 1 (s.g 0 8) (stepInfo 1 .read 4) ls (fun _ s2 => decide (s2.slip 0 = s.slip 0)))))) = true := by
  decide +kernel

theorem witness_move_disjoint : ∀ a ∈ [0x100, 0x101], ∀ p ∈ [(0x102, 2)], ¬ (p.1 ≤ a ∧ a < p.1 + p.2) := by decide

theorem witness_control_registers :
    (begins (atLevel 3) (.mfc 0 1 3) && begins (atLevel 3) (.mfc 0 1 63) && begins s0 (.mfc 0 1 8) && begins s0 (.mtc 0 15 1) &&
      begins (atLevel 2) (.mtc 0 0 5) && begins s0 (.mtc 0 0 4) && begins (atLevel 3) (.mtc 0 0 1) && begins s0 (.mtc 0 1 4) &&
      begins s0 (.mtc 0 1 5) && begins (atLevel 1) (.mtc 0 5 1) && begins s0 (.mtc 0 7 1) && begins (atLevel 2) (.mtc 0 6 1) &&
      begins s0 (.mtc 0 63 1) && begins s0 (.mtc 0 2 1)) = true ∧
    ctlOf 8 = none ∧ ctlOf 15 = none ∧ ctlOf 63 = some (.zx 15 2) ∧ ctlOf 5 = some (.tsbp 1) ∧ (Ctl.tsbp 1).writeLevel = some 1 ∧
      ctlOf 2 = some .lpid ∧ Ctl.lpid.writeLevel = none ∧ bits (s0.g 0 4) 2 0 < 5 ∧ 5 ≤ bits (s0.g 0 5) 2 0 := by
  decide +kernel

theorem witness_bank_registers :
    (begins (atLevel 2) (.mtb 0 15 2) && begins (atLevel 3) (.mtb 0 0 2) && begins (atLevel 3) (.mfb 0 30 15)) = true ∧
      (3 : Word) &&& msk 5 0 ≠ (s0.lp 0).part := by decide +kernel

theorem witness_rfl :
    (let h (lvl saved : BitVec 2) (v : Word) := onLp (fun l => { l with tsbpH := v, slips := l.slips.map (fun x => { x with level := lvl }) })
        { s0 with mem := { s0.mem with cur := [(0x8308, saved.setWidth 8)], media := [(0x8308, saved.setWidth 8)] } }
     begins (h 1 1 0x8001) (.rfl 0) 0 (fun s => match s.readBlock 0 1 0x8000 1024 with
        | .ok d s2 => decide (1 ≤ bits (leWord ((d.drop 0x308).take 8)) 1 0 ∧ s2.slip 0 = s.slip 0) && !s2.injectDue 0
        | _ => false) &&
     begins (h 1 0 0x8001) (.rfl 0) 0 (fun s => match s.readBlock 0 1 0x8000 1024 with
        | .ok d _ => decide (bits (leWord ((d.drop 0x308).take 8)) 1 0 < 1)
        | _ => false) &&
     begins (h 1 0 0) (.rfl 0) 0 (fun s => !bit ((s.lp 0).tsbp 1) 0 && !s.retryDue 0)) = true := by decide +kernel

theorem witness_lvc :
    (begins (atLevel 3) (.lvc 0 2 0xFFFF) && begins (atLevel 2) (.lvc 0 1 0) && begins (atLevel 2) (.lvc 0 0 0) &&
      begins (atLevel 1) (.lvc 0 0 0) && begins (atLevel 3) (.lvc 0 1 0) && begins s0 (.lvc 0 0 0) && begins (atLevel 1) (.lvc 0 3 0)) = true := by
  decide +kernel

/-- An exception entered with a valid TSBP of K, and one that locks up without. -/
theorem witness_exception_entry :
    s0.injectDue 0 = false ∧ (s0.lpv 0).entering = none ∧ (s0.lpv 0).unchecked = false ∧ ((s0.takeException 0 excIllegal).lp 0).st = .locked ∧
      (((onLp (fun l => { l with tsbpK := 0x8001 })).takeException 0 excIllegal).lp 0).st = .running := by decide +kernel

theorem witness_barriers :
    (begins s0 (.fence 0) 0 (fun s => !s.ownStores 0 && decide ((s.lpv 0).gangway = [])) && begins (inWindow [st0]) (.fence 0) 0 (·.ownStores 0) &&
      begins s0 (.dsync 0) && begins s0 (.iosync 0) 0 (fun s => decide ((s.lpv 0).posted = [] ∧ (s.lp 0).deferred = []))) = true ∧
      s0.vol.caches.txns = [] ∧ s0.vol.caches.grants = [] ∧ (s0.lpv 0).posted = [] ∧ (s0.lp 0).deferred = [] ∧
      (s0.lpv 0).closed = none := by decide +kernel

/-- A task bound to G1's number. -/
def task : Task := ⟨true, 0, 0x8000, 7, false, false, 0⟩

/-- LP 0 with tasks 1 and 2 bound, task 1 in slip 7. -/
def tasked : State :=
  let d : Map Task := [(1, task), (2, { task with fillDue := true })]
  onLp (fun l => { l with tasks := d, slips := l.slips.set 7 { l.slips.get 7 with task := 1 } })

/-- A TSB of FORMAT 5 at 0x8000. -/
def withTsb (s : State) : State := { s with mem := { s.mem with cur := [(0x8318, 5)], media := [(0x8318, 5)] } }

theorem witness_timetable :
    (begins (atLevel 1) (.rdslip 0 1 7 63) && begins s0 (.rdslip 0 1 0 0) && begins (atLevel 1) (.rdslip 0 1 0 0) &&
      begins s0 (.ttbind 0 1 4 5) 0 (fun s => decide ((s.g 0 4).toNat = 0)) &&
      begins (onSlip (fun x => { x with g := (x.g.set 7 63).set 8 0x800F })) (.ttbind 0 1 7 8) 0 (fun s =>
        decide ((s.g 0 7).toNat = 63 ∧ bits (s.g 0 8) 9 4 = 0 ∧ bits (s.g 0 8) 63 52 = 0)) &&
      begins (onSlip (fun x => { x with latch := true })) (.ttwait 0) 0 (fun s => s.wakeWaits 0) &&
      begins s0 (.ttwait 0) 0 (fun s => !s.wakeWaits 0 && decide ((s.lp 0).run = 0)) && begins s0 (.ttyield 0) &&
      begins s0 (.signal 0 1 4) 0 (fun s => s.mayRaise 0 (s.g 0 4).toNat) &&
      begins s0 (.signal 0 1 5) 0 (fun s => !s.mayRaise 0 (s.g 0 5).toNat) && begins (atLevel 2) (.timer 0 1)) = true := by
  decide +kernel

theorem witness_spill_and_fill :
    (begins (onLp (fun l => { l with slips := l.slips.set 7 { l.slips.get 7 with unbound := true } })) (.spill 0 7) 16 (fun s =>
        decide ((7 : Fin 8) ≠ (s.lp 0).run) && !s.slipFree 0 7 && (s.slipN 0 7).unbound) &&
      begins tasked (.spill 0 7) 16 (fun s => checks s && decide ((7 : Fin 8) ≠ (s.lp 0).run) && !s.slipFree 0 7 && !(s.slipN 0 7).unbound &&
        (match s.taskPieces 0 ((s.lp 0).tasks.get (s.slipN 0 7).task.toNat Task.none).addr.toNat .write with | .ok _ => true | _ => false)) &&
      begins s0 (.spill 0 0) 16 && begins s0 (.spill 0 7) 16 (fun s => s.slipFree 0 7) &&
      begins (withTsb (onSlip (fun x => { x with g := x.g.set 7 2 }) tasked)) (.fill 0 7 1) 0 (fun s => s.slipFree 0 1 &&
        decide ((s.g 0 7).toNat = 2) && (s.slipOfTask 0 2).isNone && decide ((s.lp 0).tasks.get 2 Task.none = { task with fillDue := true }) &&
        (match s.taskPieces 0 0x8000 .read with
         | .ok l => (s.firstBad false 1 (tsbInfo .read) l).isNone && (match (readCached 0 false (tsbInfo .read) l).run s with
            | .ok d s2 => tsbFormatOk d && !s2.injectDue 0 && decide ((s2.lpv 0).gangway = [])
            | _ => false)
         | _ => false))) = true := by decide +kernel

/-- A source's register. -/
def withEvt (n : Nat) (w : Word) (s : State := s0) : State := s.setReg (offEvt + 8 * n) w

theorem witness_asynchronous :
    (let ok (s : State) (idle : Bool) (item : Nat) : Prop := s.asyncReady 0 idle = true ∧ s.asyncItem 0 = item ∧ s.retryDue 0 = false ∧
        (s.lpv 0).micro = none
     let lost := { atLevel 2 with live := { (atLevel 2).live with linesLost := [(0, 0x1000)] } }
     let e : Exc := { excOf 0x0C 600 0 0 with target := some 0 }
     let back := onLp (fun l => { l with held := [e] })
     (ok (withEvt 600 3) true 0 ∧ (withEvt 600 3).irqNext 0 = some ⟨0, 600, none⟩) ∧
     (ok back true 0 ∧ back.irqNext 0 = some ⟨0, 600, some e⟩) ∧
     (let s := onLp (fun l => { l with deferred := [⟨0, 0x10, 1, 5⟩] })
      ok s false 2 ∧ s.deferredDue 0 = some ⟨0, 0x10, 1, 5⟩) ∧
     (ok (onLp (fun l => { l with stepDue := true })) false 3) ∧
     (let s := onLp (fun l => { l with slips := l.slips.map (fun x => { x with task := 1 }) }) tasked
      ok s true 4 ∧ s.fillTask 0 = some 2) ∧
     (ok lost false 1 ∧ lost.ckptDue 0 = false ∧ lost.linesDue 0 = true ∧
       lost.live.linesLost.find? (fun y => decide (y.1 = bits (lost.lp 0).part 5 0)) = some (0, 0x1000)) ∧
     (let s := onLp (fun l => { l with ckptDue := 9 })
      ok s true 1 ∧ s.ckptDue 0 = true) ∧
     s0.irqNext 0 = none ∧ (withEvt 600 3).evtPending 600 false 0 = true ∧ (withEvt 600 3).irqMay 0 0 0 = true ∧
      (withEvt 600 0xB (atLevel 1)).irqMay 0 1 0 = false ∧
      ⟨2, 600, none⟩ ∈ (withEvt 600 0x13 (onSlip (fun x => { x with ie := true }) (atLevel 2))).irqs 0 ∧
      ⟨1, 600, none⟩ ∈ (withEvt 600 0xB (onSlip (fun x => { x with ie := true }) (atLevel 1))).irqs 0) := by decide +kernel

theorem witness_wakes_switches_fills :
    (let w := withEvt 600 (0x7 + 1 * 2 ^ 12) tasked
     bits (w.evt 600) 10 5 = 0 ∧ w.mainOn = true ∧ w.evtPending 600 true 0 = true ∧ bits (w.evt 600) 17 12 = 1 ∧ (w.lp 0).st = .running ∧
       (w.lpv 0).sparing = none ∧ bits (w.lp 0).part 5 0 = bits (w.evt 600) 23 18 ∧ (w.lp 0).tasks.get 1 Task.none = task ∧
       task.part.toNat = bits (w.evt 600) 23 18) ∧
    (let s := onLp (fun l => { l with run := 1, decision := 1 }) tasked
     s.asyncReady 0 true = true ∧ s.asyncItem 0 = 0 ∧ s.irqNext 0 = none ∧ s.switchDue 0 = true ∧
       s.retryDue 0 = false ∧ (s.lpv 0).micro = none) ∧
    (let s := withTsb tasked
     let s1 := (s.syncWin 0 9).setLpv 0 { (s.syncWin 0 9).lpv 0 with resv := none }
     s.asyncReady 0 true = true ∧ s.fillTask 0 = some 2 ∧ s.lowestFree 0 = some 1 ∧ s.retryDue 0 = false ∧
       (match s1.readBlock 0 2 0x8000 1024 with | .ok d _ => tsbFormatOk d | _ => false) = true) := by decide +kernel

theorem witness_orders :
    s0.srcMay (.lp 0) 1 = true ∧ s0.raisable 4095 = true ∧ s0.powerState = 0 ∧ s0.srcKeel (.lp 0) = true ∧ (s0.lp 1).st = .running ∧
    (s0.lpv 1).failed = false ∧ (s0.lpv 1).sparing = none ∧
    (let s := onLp (fun l => { l with timer := 1, st := .stopped, tsbpK := 0x8001 }) { s0 with live := { s0.live with time := 1 } }
     s.powerState = 0 ∧ s.mainOn = true ∧ 0 < s.lpCount ∧ (s.lp 0).timer ≠ 0 ∧ (s.lp 0).timer ≤ s.live.time ∧ (s.lp 0).st = .stopped ∧
       (s.lpv 0).entering = none ∧ bit (s.lp 0).tsbpK 0 = true ∧
       (match ((s.setLp 0 { s.lp 0 with order := 1, latS := false, latH := false, latK := false, abandoned := none }).setLpv 0 { s.lpv 0 with
          resv := none, win := none, micro := none, entering := some (0, excOf 0 0 0 0, 0) }).readBlock 0 0 0x8400 64 with
        | .ok _ _ => true
        | _ => false) = true) ∧ s0.tidy = true := by decide +kernel

theorem witness_maintenance :
    ([Instr.cwb 0 1 3 1, .cinv 0 1 3 1, .cunlock 0 1 3 1 false, .cunlock 0 1 3 1 true, .clock 0 1 3 1 false, .clock 0 1 3 1 true].all (fun i =>
        begins (atLevel 2) i 0 (fun s => decide ((s.slip 0).level.toNat ≤ 2 ∧ s.g 0 3 ≠ 0) && forms s 1 (s.g 0 1) 64 .read 7 (fun l =>
          l.all (fun p => !s.lineHeld (p.1 / 256))))) &&
      [Instr.cwb 0 1 4 1, .cinv 0 1 4 1, .cunlock 0 1 4 1 true].all (begins s0 · 0 (fun s => decide (s.g 0 4 = 0))) &&
      begins (atLevel 3) (.cwb 0 1 3 1) && begins (atLevel 3) (.cinv 0 1 3 1) && begins (atLevel 3) (.cunlock 0 1 3 1 true)) = true ∧
    (let s := s0.setReg 0x100100 0x14
     s.freeWay 0 0x100 = some 15 ∧ ({ s with live := { s.live with lockTags := [(0, 0x100, 15)] } }.freeWay 0 0x100) = none) := by decide +kernel

theorem witness_lines :
    (holding 0x100 .m).vol.caches.dir.sorted = true ∧ ((holding 0x100 .m).lineRef 0x100).isSome = true ∧ ((holding 0x100 .m).man 0x100 0).holders = 0 ∧
    (begins s0 (.ctouch 0 1 1 true) && begins s0 (.czero 0 4 1) 4 (fun s => checks s && decide ((s.g 0 4).toNat % 256 = 0) &&
        forms s 1 (s.g 0 4) 256 .write 7) && begins s0 (.czero 0 1 1) 4 (fun s => decide ((s.g 0 1).toNat % 256 ≠ 0))) = true := by
  decide +kernel

/-- The decode entry of customer instructions of number 15: valid, level P, format 0, entry 0x8400; its routine ends at once. -/
def ucState : State :=
  let s := s0.setReg (offUc + 0x478) (BitVec.ofNat 64 (0x8400 * 2 ^ 16 + 0x7))
  { s with vol := { s.vol with store := [(0x8400, BitVec.ofNat 128 (5 * 2 ^ 44)), (0x8401, 0)] } }

/-- A routine of that entry. -/
def routine (upc : Nat) : Micro := { Micro.enter 0xF800000F false 15 upc with loops := [(65536, 0x8400, 63), (1, 0x87FF, 0)], slot := some 0x8410 }

theorem witness_routines :
    (match ucState.begun false 0 1 2 with
     | some s1 => !bit (s1.slip 0).ustate 16 && bit (s1.reg (offUc + 0x478)) 0 && decide (bits (s1.reg (offUc + 0x478)) 7 4 = 0 ∧
        bits (s1.reg (offUc + 0x478)) 31 16 = 0x8400 ∧ s1.ucFetch false 0x8400 = 0x8400 ∧ s1.ucFetch false 0x8401 = 0x8401 ∧
        (s1.slip 0).level.toNat ≤ bits (s1.reg (offUc + 0x478)) 2 1 ∧ s1.ucWord 0x8400 = 5 * 2 ^ 44 ∧ s1.ucWord 0x8401 = 0) &&
        !s1.ucBad 0 0x8400 && !s1.ucBad 0 0x8401 && !bit (s1.reg (offUc + 0x478)) 3 && !bit (s1.reg (offUc + 0x400)) 0
     | none => false) = true ∧
    (let s := (onSlip (fun x => { x with level := 1 }) ucState).setReg (offUc + 0x478) (BitVec.ofNat 64 (0x8400 * 2 ^ 16 + 0x1))
     (match s.begun false 0 1 2 with
      | some s1 => decide (bits (s1.reg (offUc + 0x478)) 2 1 < (s1.slip 0).level.toNat)
      | none => false) = true) ∧
    (routine 0x87FF).upc < 65536 ∧ (routine 0x8400).loops.length ≤ 2 := by decide +kernel

theorem witness_routine_parts :
    (∀ t, (routine 0x8400).slot = some t → t < 65535 ∨ t = ucEndMark) ∧
      (∀ t, { routine 0x8400 with slot := some ucEndMark }.slot = some t → t < 65535 ∨ t = ucEndMark) ∧
      ∀ l ∈ (routine 0x8400).loops, 1 ≤ l.1 ∧ l.1 ≤ 65536 ∧ l.2.1 < 65536 ∧ l.2.2 < 64 :=
  ⟨fun t h => by cases h; decide, fun t h => by cases h; decide, by decide⟩

theorem witness_forerunner :
    (let s := (onSlip (fun x => { x with level := 2 })).setReg (offCfg + 0x100) 2
     match s.begun true 0 1 2 with
     | some s1 => !bit (s1.slip 0).ustate 16
     | none => false) = true ∧
    decodeWords 0 0xFC000000#32 0 = none ∧
    (match s0.begun false 0 1 0 with | some s1 => !bit (s1.slip 0).ustate 16 | none => false) = true ∧
    (let m := Micro.enter 0xF800000F false 15 0x8400
     let w : BitVec 128 := BitVec.ofNat 128 (4 * 2 ^ 44 + 5 * 2 ^ 48)
     let s := onLpv (fun v => { v with micro := some m }) { ucState with vol := { ucState.vol with store := [(0x8400, w)] } }
     s.ucWord 0x8400 = w ∧ s.lpReady 0 = true ∧ s.boundaryDue 0 = false ∧ ucIsWait w = true ∧ ucCond w = 5 ∧ ucMem w = 0 ∧
       s.ucNextWord m = w ∧ m.slot = none ∧ m.pendU = none ∧ m.pendG = none ∧ s.ucIllegal m w = none ∧
       s.ucBad 0 (s.ucFetch m.kind m.upc) = false ∧ (s.lpv 0).win = none ∧ (s.u 0 (ucA w)).toNat ≤ s.live.time.toNat) := by decide +kernel

/-- A forerunner routine that ends at once, at any word but the last. -/
theorem witness_forerunner_routine (upc : Nat) (h : 0xC000 ≤ upc ∧ upc + 1 < 65536) :
    ∃ s : State, s.ucWord upc = 5 * 2 ^ 44 ∧ s.ucWord ((upc + 1) % 65536) = 0 ∧ s.ucBad 0 upc = false ∧
      s.ucBad 0 ((upc + 1) % 65536) = false := by
  refine ⟨{ s0 with vol := { s0.vol with store := [(upc, 5 * 2 ^ 44), (upc + 1, 0)] } }, ?_, ?_, rfl, rfl⟩
  · simp [State.ucWord, Map.get, show ¬ upc < 32768 by omega]
  · rw [Nat.mod_eq_of_lt h.2]
    simp [State.ucWord, Map.get, show ¬ upc + 1 < 32768 by omega]

/-- LP 0 with one twin failed and a spare chosen, both done. -/
def spared (fence : Bool) : State :=
  onLpv (fun v => { v with sparing := some { failed := 0, spare := some 60, fence := fence, cls := 1, drained := true, ready := true, lost := [], mmRec := 0 } })

theorem witness_windows :
    (let w : Win := { Win.fresh (s0.ckptOf 0 none) with retired := 256, stores := [st0] }
     let full := onLpv (fun v => { v with win := some w })
     let shut (fails : Nat) := onLpv (fun v => { v with closed := some w, fails := fails })
     let asked := onLpv (fun v => { v with freeze := true })
     full.mainOn = true ∧ full.pwr.lpsOn = true ∧ 0 < full.lpCount ∧ full.atBoundary 0 = true ∧ full.windowLength = 256 ∧
       ((full.lpv 0).failed = false ∧ (full.lpv 0).sparing = none ∧ (full.lpv 0).ask = none ∧ (full.lpv 0).closed = none) ∧
       ((shut 0).lpv 0).inject = [] ∧ ((shut 0).lpv 0).freeze = false ∧ ((shut 0).lpv 0).unchecked = false ∧ (shut 1).mainOn = true ∧
       ((shut 0).lpv 0).fails = 0 ∧ ((shut 1).lpv 0).fails ≠ 0 ∧
       (asked.lpv 0).frozen = false ∧ asked.atBoundary 0 = true ∧ asked.pwr.phase ≠ .landing ∧ (asked.lpv 0).micro = none ∧
       (asked.lpv 0).devLoad = none ∧ (asked.lpv 0).devStore = none ∧ (asked.lpv 0).entering = none ∧ (asked.lpv 0).inject = [] ∧
       asked.vol.caches.txns = [] ∧ asked.vol.caches.grants = [] ∧
       ({ s0 with std := { s0.std with fc := [(0x18, 0x40)] } }.ssAllowed 0) = true ∧ (s0.lp 0).run = 0 ∧ (s0.lp 0).st = .running ∧
       ((onLpv (fun v => { v with halted := true })).lpv 0).halted = true) ∧
    ((spared true).lpv 0).sparing.isSome = true ∧ (spared false).mainOn = true ∧ (spared false).tidy = true ∧
    (let s := onLpv (fun v => { v with sparing := v.sparing.map (fun x => { x with drained := false }) }) (spared false)
     ((s.lpv 0).sparing.map (·.drained)) = some false ∧ (s.lpv 0).releasing = [] ∧ s.tidy = true) := by decide +kernel

/-- A request of agent 1 for line 0x100 in the home's hands, with nothing awaited. -/
def opened (k : ReqKind) (data : List Byte := []) (off : Nat := 0) (wait : List Nat := []) (s : State := s0) : State :=
  s.withCaches (fun c => { c with txns := [⟨⟨k, 1, 0x100, off, data⟩, wait, [], false, true, true, false, 0⟩] })

theorem witness_home_requests :
    (s0.ownLine 0x100).isSome = true ∧ s0.mainOn = true ∧ s0.inDeck 0 = true ∧
    (let r : LineRef := ⟨0x100, true, 0, 0x10000⟩
     s0.ownLine 0x100 = some r ∧
     [ReqKind.rds, .rdo, .upg, .rdoz, .rdcur, .clean, .inv, .wrinvf, .wrinvp].all (fun k =>
       s0.mayOpen r ⟨k, 1, 0x100, 0, []⟩ && !(opened .rds).mayOpen r ⟨k, 1, 0x100, 0, []⟩) = true ∧
     (holding 0x100 .s s0 1).mayOpen r ⟨.upg, 1, 0x100, 0, []⟩ = true ∧
     (let s := s0.setReg (0xE00000 + 0x40) 2
      s.inDeck 1 = true ∧ s.ownLine 0x100 = some r ∧ s.mayOpen r ⟨.upg, 129, 0x100, 0, []⟩ = true ∧
        (s.man 0x100 0).holders.getLsbD 1 = false ∧ (129 : Nat) / 128 ≠ s.pwr.modid.val) ∧
     (opened .rds).ownLine 0x100 = some r) ∧
    ((opened .rds).home 0).tickets = [] ∧ ((opened .rds).home 0).queue.length < 16 ∧
    (let s := (opened .rds).setHome 0 { Home.none with queue := List.replicate 16 ⟨.rds, 1, 0x100, 0, []⟩ }
     16 ≤ (s.home 0).queue.length ∧ (s.home 0).tickets = [] ∧ s.mayOpen ⟨0x100, true, 0, 0x10000⟩ ⟨.rds, 1, 0x100, 0, []⟩ = false) ∧
    (let s := s0.withCaches (fun c => { c with grants := [⟨⟨.rds, 1, 0x100, 0, []⟩, .i, true, false, none⟩] })
     (s.grantFor 1 0x100 true).isSome = true) ∧
    (s0.setHome 15 { Home.none with tickets := [(1, 0x100)] }).tidy = true ∧ ((s0.setHome 15 { Home.none with tickets := [(1, 0x100)] }).home 15).tickets ≠ [] := by
  decide +kernel

theorem witness_home_completions :
    (let done (k : ReqKind) (supplied : Bool) (data : List Byte) (off : Nat) : Prop :=
      let s := (opened k data off).withCaches (fun c => { c with txns := c.txns.map (fun x => { x with supplied := supplied }) })
      s.tidy = true ∧ (s.ownLine 0x100).isSome = true ∧ s.portState 0 = 2 ∧ (s.home 0).queue = [] ∧ (s.home 0).poisons = [] ∧
        (match s.txnOf 0x100 with
         | some x => decide (x.req.line = 0x100 ∧ x.req.req = 1 ∧ x.wait = [] ∧ x.wbp = [] ∧ x.req.kind = k ∧ x.supplied = supplied ∧ x.dirty = true ∧
            x.req.data = data ∧ x.req.off + data.length ≤ 256)
         | none => false) = true
     done .rds true [] 0 ∧ done .rdo true [] 0 ∧ done .rdcur true [] 0 ∧ done .rds false [] 0 ∧ done .upg false [] 0 ∧ done .rdoz false [] 0 ∧
       done .wrinvf false (List.replicate 256 7) 0 ∧ done .wrinvp true [1, 2] 254 ∧ done .clean false [] 0 ∧ done .inv false [] 0) ∧
    ((opened .rds).setReg (offPm 0) 3).portState 0 ≠ 2 ∧
    (let s := s0.withCaches (fun c => { c with grants := [⟨⟨.rds, 1, 0x100, 0, []⟩, .e, false, true, none⟩] })
     s.vol.caches.dir.sorted = true ∧ s.grantFor 1 0x100 false = some ⟨⟨.rds, 1, 0x100, 0, []⟩, .e, false, true, none⟩) := by decide +kernel

theorem witness_snoops :
    (let snoop (k : ReqKind) (c : CSt) : Bool :=
      let s := opened k [] 0 [0] (holding 0x100 c)
      (s.ownLine 0x100).isSome && s.mainOn && s.vol.caches.dir.sorted && decide ((s.cline 0 0x100).st = c) &&
        !(s.cline 0 0x100).moored && !(s.cline 0 0x100).wbk && s.vol.caches.heldSnoops.isEmpty && s.vol.caches.resps.isEmpty &&
        (match s.txnOf 0x100 with
         | some x => x.wait.contains 0
         | none => false)
     snoop .rds .m && snoop .rdo .o && snoop .rdcur .e && snoop .wrinvp .s && snoop .wrinvf .m && snoop .clean .o && snoop .rdoz .i) = true ∧
    ReqKind.rds.snoop = .shared ∧ ReqKind.upg.snoop = .own ∧ ReqKind.rdcur.snoop = .cur ∧ ReqKind.wrinvp.snoop = .inv ∧
    ReqKind.wrinvf.snoop = .invf ∧ ReqKind.clean.snoop = .clean ∧
    (let s := (opened .rds [] 0 [0, 1025]).withCaches (fun c => { c with resps := [(0, 0x100, .dataDirty)] })
     (s.ownLine 0x100).isSome = true ∧ (s.txnOf 0x100).isSome = true ∧
       s.vol.caches.resps.find? (fun e => decide (e.1 = 0 ∧ e.2.1 = 0x100)) = some (0, 0x100, .dataDirty)) ∧
    (let s := s0.setCline 0 0x100 { CLine.none with st := .s, valid := 15, moored := true }
     (s.cline 0 0x100).moored = true ∧ s.vol.caches.heldSnoops.any (fun e => decide (e.1 = 0 ∧ e.2.1 = 0x100)) = false) := by decide +kernel

theorem witness_writebacks :
    (let s := holding 0x100 .m
     s.tidy = true ∧ (s.ownLine 0x100).isSome = true ∧ s.mainOn = true ∧ (s.cline 0 0x100).st.dirty = true ∧ (s.cline 0 0x100).wbk = false ∧
       s.cacheOn 64 = false ∧ s.portState 0 = 2) ∧
    (let s := s0.setReg (0xE00000 + 0x40) 2
     (s.ownLine 0x100).isSome = true ∧ s.inDeck 1 = true ∧ s.txnOf 0x100 = none) ∧
    (let s := s0.setCline 79 0x100 { CLine.none with wbk := true }
     (s.cline 79 0x100).wbk = true) ∧
    (let s := s0.withCaches (fun c => { c with manBad := [(15, 131071)] })
     s.mainOn = true ∧ s.vol.caches.manBad.contains (15, 131071) = true ∧ s0.vol.caches.manBad.contains (15, 131071) = false) ∧
    s0.srcMay (.lp 1) 1 = true ∧ s0.cacheOn 79 = false ∧
    (let s := (s0.setCline 0 0x100 { CLine.none with st := .s, valid := 15, way := 13 }).setReg 0x100100 0
     (s.cline 0 0x100).way < 16 ∧ (s.cline 0 0x100).st ≠ .i) := by decide +kernel

/-- A device access of an LP. -/
def acc : DevAcc := { addr := 0xE000000000000, size := 8, dst := 1, pair := false, data := 0, data2 := 0, level := 0, posted := true, len := 1, finfo := 0, iword := 0 }

theorem witness_device_answers :
    s0.devAlive 0 = true ∧ ((onLpv (fun v => { v with devLoad := some acc })).lpv 0).devLoad = some acc ∧ acc.pair = false ∧
      acc.size ∈ [1, 2, 4, 8] ∧ acc.dst = (1 : Reg).val ∧ { acc with dst := 33 }.dst = 32 + (1 : Reg).val ∧
      ((onLpv (fun v => { v with devStore := some acc })).lpv 0).devStore = some acc ∧
      ((onLpv (fun v => { v with posted := [acc] })).lpv 0).posted[0]? = some acc ∧ portBehind [] acc.addr = false ∧
      portBehind [acc] acc.addr = true := by decide +kernel

/-- An expander that passes every test. -/
def expander : Expander := ⟨64, 8, true, true, true, true, 0x1234, 2 ^ 32, 0⟩

/-- A peer that passes every stage. -/
def peer : CwyPeer := ⟨0xFFFF, 0x10, 0, 1, 0, [0x21], 0, 0, false⟩

/-- The module while its links train. -/
def training : State := { s0 with std := { s0.std with fc := [(0x18, 3)] }, pwr := { s0.pwr with phase := .training, lpsOn := false } }

theorem witness_ports_and_links :
    (let s := training.setReg (offPm 15) 1
     s.tidy = true ∧ s.pwr.phase = .training ∧ s.portState 15 = 1 ∧ refuseCode expander false none = 0) ∧
    s0.mainOn = true ∧ s0.portState 0 = 2 ∧
    (let s := s0.setReg 0xE00018 1
     s.mainOn = true ∧ s.regF 0xE00018 2 0 = 1 ∧ peer.lanes = 0xFFFF ∧ 0x21 ∈ peer.versions ∧ peer.stepping = s.pwr.stepping ∧
       (peer.part = 3 ↔ s.pwr.part = 3) ∧ peer.modid.toNat ≠ s.pwr.modid.val ∧ { peer with modid := 0 }.modid.toNat = s.pwr.modid.val) ∧
    (s0.setReg 0xE00018 0x12).regF 0xE00018 2 0 = 2 ∧ (s0.setReg 0xE00018 0x12).regF 0xE00018 6 4 = peer.modid.toNat ∧
    (s0.lpv 0).releasing = [] ∧ (s0.lpv 0).entering = none := by decide +kernel

/-- Port 0 with an expander of 4 GiB recorded. -/
def ported : State := { s0 with nv := { s0.nv with cfg := { s0.nv.cfg with ports := [(0, some (0x1234, 2 ^ 32))] } } }

theorem witness_tile_checks :
    ported.tidy = true ∧ ported.mainOn = true ∧ ported.portState 0 = 2 ∧ 0x100 * 256 < dataEnd (ported.recordedCap 0) ∧
    dataEnd (ported.recordedCap 0) ≤ ported.recordedCap 0 ∧ ported.holders (absLine ported.live.sets 0 0 0x10000) = [] ∧
    ported.man (absLine ported.live.sets 0 0 0x10000) 0 = Man.none ∧ ported.mem.mpoison.get 0x100 false = false ∧
    dataEnd (ported.recordedCap 0) ≤ 0xFFFFFF * 256 ∧ 0xFFFFFF * 256 < ported.recordedCap 0 ∧ ported.srcMay (.lp 0) 1 = true ∧
    (ported.ownLine 0x100).map (·.port) = some 0 ∧ ported.txnOf 0x100 = none ∧ (opened .rds [] 0 [] ported).txnOf 0x100 ≠ none ∧ bit ((ported.setReg 0x200008 1).reg 0x200008) 0 = true ∧
    0 < dataEnd (ported.recordedCap 0) / 256 := by decide +kernel

/-! ## Witnesses: landings, starts, pins -/

/-- The module in a landing, with its outputs quiesced or not. -/
def landing (q : Bool) : State := { s0 with
  std := { s0.std with fc := [(0x18, 1)] }
  pwr := { s0.pwr with phase := .landing, land := { Landing.none with quiesced := q, frozen := q, members := 2 } } }

theorem witness_triggers :
    s0.std.standby = true ∧ s0.srcKeel (.lp 0) = true ∧ s0.islandsOn = true ∧ s0.std.thermtrip = false ∧ s0.tidy = true ∧
      s0.pwr.phase = .running ∧ (landing false).pwr.phase = .landing ∧ (landing false).std.standby = true ∧
      (landing false).pwr.land.quiesced = false := by decide +kernel

/-- A landing that is complete. -/
def complete (bad : Bool) : State := { landing true with pwr := { (landing true).pwr with
  land := { Landing.none with quiesced := true, frozen := true, linesDone := true, recallClosed := true, gpfOn := true, badStack := bad } } }

theorem witness_landings :
    (landing true).tidy = true ∧ (landing true).pwr.land.recallClosed = false ∧
    (landing true).pwr.land.members &&& BitVec.ofNat 8 (2 ^ (1 : Fin 8).val) ≠ 0 ∧ (1 : Fin 8) ≠ (landing true).pwr.modid ∧
    (landing true).pwr.land.quiesced = true ∧ (landing true).pwr.land.linesDone = false ∧
    (let s := holding (2 ^ 36) .m (landing true)
     s.ownLine (2 ^ 36) = none ∧ (s.holders (2 ^ 36)).any (fun e => e.2.st.dirty && !e.2.scratch) = true) ∧
    (let l := { (landing true).pwr.land with gpf1 := 0x8000, gpf2 := 1 }
     l.gpf1 &&& BitVec.ofNat 16 (2 ^ 15) ≠ 0 ∧ l.gpf2 &&& BitVec.ofNat 16 (2 ^ 0) ≠ 0) ∧
    (complete false).tidy = true ∧ (complete false).pwr.land.complete = true ∧ (complete false).pwr.due = false ∧ (complete false).pwr.land.acks = 0 ∧
    (complete true).pwr.land.badStack = true ∧ (complete true).pwr.land.complete = true := by decide +kernel

/-- What a start finds: no image, or an empty one. -/
def found (a : Option Image) : StartInput := ⟨⟨a, none⟩, 15, 0, 0xFFFFFFFFFFFFFFFF, 0, true, true⟩

/-- The module with its rails good and a phase. -/
def risen (p : Phase) (state : Nat) : State := { State.reset with
  std := { State.reset.std with fc := [(0x18, BitVec.ofNat 64 state)], pwrgood := true }
  pwr := { State.reset.pwr with phase := p } }

theorem witness_starts :
    State.reset.tidy = true ∧ State.reset.std.standby = true ∧ State.reset.std.pwrgood = false ∧ State.reset.std.modrst = false ∧
      State.reset.std.pwrfail = false ∧
    (let s := risen .off 5
     s.std.pwrgood = true ∧ { s with std := { s.std with modrst := true } }.std.modrst = true ∧ s.pwr.phase ≠ .landing ∧ s.powerState ≠ 4) ∧
    (risen .waiting 5).pwr.phase = .waiting ∧
    (let s := { risen .landed 2 with nv := { State.reset.nv with cfg := { State.reset.nv.cfg with cause := 1 } } }
     s.pwr.phase = .landed ∧ s.nv.cfg.cause = 1 ∧ s.planF 0x0A01 100 ≠ 0) ∧
    (let s := { risen .unsealed 4 with std := { (risen .unsealed 4).std with faultHold := true } }
     s.tidy = true ∧ s.std.faultHold = true ∧ bit (s.reg 0x20010) 16 = false ∧ s.regF 0x20010 15 0 < s.regF 0x20008 23 16 ∧
       (s.setReg 0x20010 8).regF 0x20008 23 16 ≤ (s.setReg 0x20010 8).regF 0x20010 15 0) ∧
    State.reset.pwr.part.toNat < 4 ∧ (found none).otpOk = true ∧ State.reset.nv.cfg.lcPending = 0 ∧ State.reset.nv.cfg.fullPending = false ∧
      State.reset.nv.otp.retired = false ∧ (found none).stacksOk = 15 ∧ State.reset.nv.newest = none ∧ State.reset.nv.cfg.svnPending = none ∧
      State.reset.stateBad = false ∧
      { State.reset with nv := { State.reset.nv with otp := { State.reset.nv.otp with retired := true } } }.stateBad = true ∧
      (let s := { State.reset with nv := { State.reset.nv with otp := { State.reset.nv.otp with retired := true, life := 7 } } }
       s.stateBad = false ∧ s.nv.otp.retired = true) ∧
      State.reset.lpCount ≤ (State.reset.bindingOrder (found none).goodTwins).length := by decide +kernel

theorem witness_power_pins :
    s0.tidy = true ∧ s0.std.pwrgood = true ∧ s0.pwr.phase = .running ∧ s0.std.standby = true ∧ s0.std.modrst = false ∧ s0.islandsOn = true ∧
    (let s := { risen .landed 2 with nv := { State.reset.nv with slotA := { Slot.blank with st := .sealed } } }
     s.tidy = true ∧ s.pwr.phase = .landed ∧ s.nv.newest = some false ∧ (s.nv.slotOf false).st = .sealed) ∧
    { s0.std with standby := false }.standby = false ∧ (risen .waiting 5).std.pwrgood = true ∧ (risen .waiting 5).tidy = true := by decide +kernel

/-- A port that trained with 4 GiB, 3 of them whole. -/
def trained : State := { training.setReg 0x200010 0x30000 with nv := ported.nv }

/-- Keelcode of one word, loaded at 0x10000, with stacks of 4 KiB from 0x20000. -/
def keelcode : Section :=
  ⟨1, 4096, 3204, 1, 1, 0, false, 0, 0, [], [], toBytes 0x10000 8 ++ toBytes 0 8 ++ toBytes 0x20000 8 ++ toBytes 4096 8 ++ List.replicate 32 0 ++ [1, 2, 3, 4]⟩

/-- An image that holds it. -/
def image : Image := ⟨0, 1, 0, 0, 1, 8192, true, [keelcode]⟩

theorem witness_start_ends :
    (let s : State := { trained with pwr := { trained.pwr with si := some (found (some image)) } }
     let o := (s.endTraining.readImage image true).2
     let s1 : State := { s.endTraining with live := { s.endTraining.live with sets := o.sets } }
     s.tidy = true ∧ s.pwr.phase = .training ∧ s.pwr.resume = false ∧ flashSlot (found (some image)).flash s.pwr.imgB = some image ∧
       ((s1.setReport o.report).replayCarried.replayOpen).keelOk o.sets (keelOf image) = true) ∧
    (let x := { Slot.blank with st := .sealed, image := some State.reset.live }
     let s : State := { trained with pwr := { trained.pwr with si := some (found (some image)), resume := true }, nv := { trained.nv with slotA := x } }
     s.tidy = true ∧ s.pwr.phase = .training ∧ s.pwr.resume = true ∧ s.nv.newest = some false ∧ (s.nv.slotOf false).image = some State.reset.live) ∧
    flashSlot (found (some image)).flash true = none ∧
    (let s := { s0 with std := { s0.std with fc := [(0x18, 0x80)] } }
     s.tidy = true ∧ s.srcKeel (.lp 0) = true ∧ s.harbour = true ∧ s.pwr.phase = .running) := by decide +kernel

/-! ## Witnesses: the channel -/

/-- The channel on, VCF 5 OPEN with partition 0, whose hub extent and bank 0 reach memory, and queue pair 3 of the pool its pair 255. -/
def ch0 : State :=
  let s := (((s0.setReg 0x400000 1).setReg 0x408000 1).setReg 0x408010 0x20000)
  let s := (s.setReg 0x805900 7).setReg 0x805908 0xFFFF
  let q : Qp := { Qp.free with vcf := 5, loc := 255, st := 2, sq := 0x1000, sqN := 16, cq := 0x2000, cqN := 16, tail := 2, vec := some 63, unsig := 1 }
  (s.setVcf 5 { Vcf.off with st := 2, version := 0x42, maxver := 0x42, cap := 8, entries := 16, vecs := [(63, 600)] }).setQp 3 q

/-- A descriptor of a type: LENGTH, source and destination addresses. -/
def desc (ty len src dst : Nat) (w5 : Nat := 0) : List Byte :=
  toBytes ty 8 ++ toBytes len 8 ++ toBytes src 8 ++ toBytes dst 8 ++ toBytes 0 8 ++ toBytes w5 8 ++ toBytes 0 16

/-- An operation of that descriptor. -/
def op (d : List Byte) : Op :=
  { desc := d, pool := 3, head := none, members := [], target := none, mirror := none, checked := false, started := false, fin := none,
    degraded := false, raw := false, broken := 0, cpl := List.replicate 32 0 }

/-- That operation accepted at journal entry 7. -/
def withOp (o : Op) (s : State := ch0) (st : Nat := 1) : State := (s.setOp 7 o).setJent 7 { Jent.free with st := st, vcf := 5, qp := 255, seq := 1 }

/-- A step in flight for it on controller 9. -/
def step0 : Step :=
  { eng := 0, off := 0, len := 512, mem := [(0x3000, 512)], ctrlr := some 9, localDone := false, remoteDone := true, rqn := none, fin := none,
    out := 0, ts := 0, unit := none }

/-- Whether a target table is read. -/
def reads {α : Type} (r : Except Nat α) : Bool := match r with | .ok _ => true | .error _ => false

theorem witness_management :
    (let a0 : Word := BitVec.ofNat 64 (0x42 * 2 ^ 8 + 1 * 2 ^ 16 + 4194304 * 2 ^ 24)
     let a1 : Word := BitVec.ofNat 64 (1 * 2 ^ 52 + 0x40 * 2 ^ 8)
     ch0.tidy = true ∧ ch0.srcMay (.lp 0) 1 = true ∧ ch0.pwr.phase = .running ∧ (ch0.vcf 1022).st = 0 ∧ bits a0 15 8 ≤ 0x42 ∧ bits a0 7 6 = 0 ∧
       bits a0 63 47 = 0 ∧ 1 ≤ bits a0 23 16 ∧ bits a0 46 24 = 4194304 ∧ bits a1 7 0 = 0 ∧ bits a1 63 52 = 1 ∧
       ch0.vol.mfWait = none ∧
       reads (((ch0.setReg 0x400018 a0).setReg 0x400020 a1).readTable (bits a1 51 8 * 256) (bits a1 63 52 * 16)) = true) ∧
    (let s := opened .rds [] 0 [] (ch0.setVcf 5 { ch0.vcf 5 with table := 0x10000 })
     s.tidy = true ∧ s.vol.mfWait = none ∧ (s.vcf 5).st ≠ 0 ∧
       (match ((s.setReg 0x400018 0).setReg 0x400020 0).readTable (s.vcf 5).table (s.vcf 5).entries with
        | .error n => decide (n = 0x100)
        | _ => false) = true) ∧
    (ch0.vcf 5).st = 2 ∧ ch0.live.ch.ops = [] ∧ ((withOp (op (desc 4 1 0 0))).live.ch.ops.any (fun e => ((withOp (op (desc 4 1 0 0))).jent e.1).vcf = 5)) = true ∧
    (ch0.qpsOf 5).length + 1 ≤ 256 ∧ (ch0.freePairs 1).length = 1 ∧ ch0.poolOf 5 255 = some 3 ∧
    ((ch0.setQp 3 { Qp.free with vcf := 5, loc := 255, st := 1 }).qp 3).st = 1 ∧
    (let g : Word := BitVec.ofNat 64 (4095 * 2 ^ 16 + 0)
     ch0.vecGranted (bits g 27 16) = false ∧ (ch0.vcf 5).vecs.get (bits g 5 0) 0 = 0 ∧ ch0.srcAssigned (bits g 27 16) = false ∧
       bits g 15 6 = 0 ∧ bits g 63 28 = 0 ∧ 512 ≤ bits g 27 16) ∧
    (let s := ch0.setQp 3 { Qp.free with vcf := 5, loc := 255, st := 1 }
     (s.vcf 5).vecs.sorted = true ∧ (s.vcf 5).vecs.get (bits (63 : Word) 5 0) 0 ≠ 0 ∧ bits (63 : Word) 63 6 = 0 ∧ (s.qpsOf 5).all (fun e => e.2.st < 2) = true) ∧
    reads (((ch0.setReg 0x400018 0).setReg 0x400020 0).readTable (ch0.vcf 5).table (ch0.vcf 5).entries) = true ∧
    (let f : Word := BitVec.ofNat 64 (63 + 512 * 2 ^ 16 + 16 * 2 ^ 32)
     bit (ch0.reg (0x300100 + 8 * bits f 5 0)) 20 = false ∧
       (List.range 16).all (fun k => !ch0.vecGranted (512 + k) && !ch0.srcAssigned (512 + k)) = true ∧
       bits f 7 6 = 0 ∧ bits f 15 14 = 0 ∧ bits f 31 28 = 0 ∧ bits f 63 44 = 0 ∧ bits f 43 32 ≤ 3584 ∧ 512 ≤ bits f 27 16) ∧
    bits (63 : Word) 63 6 = 0 ∧ bit ((ch0.setReg 0x3002F8 (BitVec.ofNat 64 (2 ^ 20))).reg (0x300100 + 8 * bits (63 : Word) 5 0)) 20 = true := by
  decide +kernel

theorem witness_queue_commands :
    (let s := ch0.setVcf 5 { ch0.vcf 5 with st := 1 }
     let v : Word := 0x3042
     s.tidy = true ∧ s.vcfMay (.lp 0) = true ∧ bits v 63 17 = 0 ∧ (s.vcf 5).st = 1 ∧ bits v 15 8 ≤ 0x42 ∧ 0x42 ≤ bits v 7 0 ∧
       0x42 ≤ (s.vcf 5).maxver ∧ ¬ bits (0x4342 : Word) 15 8 ≤ 0x42) ∧
    ch0.tidy = true ∧ ch0.vcfMay (.lp 0) = true ∧ (ch0.vcf 5).st = 2 ∧ ch0.live.ch.ops = [] ∧ ch0.poolOf 5 255 = some 3 ∧ (ch0.qp 3).vcf = 5 ∧
    (ch0.qp 3).loc = 255 ∧
    (let s := ((ch0.setQp 3 { Qp.free with vcf := 5, loc := 255, st := 1 }).setReg 0x805818 0x1000).setReg 0x805820 0x2000
     let s := s.setReg 0x805828 63
     (s.qp 3).st = 1 ∧ bit (s.reg 0x805828) 6 = false ∧ (s.vcf 5).vecs.get 63 0 ≠ 0 ∧ s.queueOk 0 0x1000 (16 * 64) = true ∧
       s.queueOk 0 0x2000 (16 * 32) = true) ∧
    (ch0.qp 3).st = 2 ∧ ((withOp (op (desc 4 1 0 0))).live.ch.ops.any (fun e => e.2.pool = 3)) = true ∧
    ((15 : Nat) + 16 - (ch0.qp 3).tail) % 16 ≤ 15 - ((ch0.qp 3).tail + 16 - ch0.sqHead 3) % 16 ∧
    (0 + 16 - (ch0.qp 3).head) % 16 ≤ ((ch0.qp 3).cqTail + 16 - (ch0.qp 3).head) % 16 := by decide +kernel

theorem witness_descriptors :
    (ch0.tidy = true ∧ ch0.accepting 3 = true ∧ 0 < (ch0.qp 3).sqN ∧
      ([] : List (List Byte)).length < ((ch0.qp 3).tail + (ch0.qp 3).sqN - (ch0.qp 3).accept) % (ch0.qp 3).sqN ∧
      (match ch0.hubPieces 0 0x1000 64 false with
       | some l => (match (chReadPieces 0 l).run ch0 with | .ok _ _ => true | _ => false)
       | none => false) = true) ∧
    (let s := { ch0 with vol := { ch0.vol with fetched := [(3, [desc 0 0 0 0])] } }
     s.vol.fetched.get 3 [] = [desc 0 0 0 0] ∧ s.accepting 3 = true ∧ chainLen (s.vcf 5).version (desc 0 0 0 0) = 0 ∧
       s.nv.journal.length < 4194304 ∧ (s.nv.journal.filter (fun e => decide (e.2.vcf = 5))).length < (s.vcf 5).cap) ∧
    [0, 8, 9].all (fun ty =>
      let o := { op (desc ty 0 0 0) with checked := true, started := true }
      let s := withOp o
      s.mayStart 7 o && (s.step? 7).isNone && decide (((s.begin 7 o).op? 7) = some o) && o.checked && o.fin.isNone && decide (dType o.desc = ty)) = true ∧
    (let o := op (desc 0 0 0 0)
     let s := withOp o ch0 3
     s.op? 7 = some o ∧ (s.jent 7).st = 3 ∧ s.pwr.phase = .running ∧ s.accepted 7 = true ∧
       { s with vol := { s.vol with heldFor := [(7, 0)] } }.accepted 7 = false ∧
       (match s.hubPieces 0 ((s.qp 3).cq + 32 * (s.jent 7).cqSlot) 32 true with
        | some l => (match (chWritePieces l o.cpl).run s with | .ok _ _ => true | _ => false)
        | none => false) = true) ∧
    (ch0.qp 3).vec = some 63 ∧ (ch0.qp 3).unsig ≠ 0 ∧ ch0.raisable ((ch0.vcf 5).vecs.get 63 0) = true := by decide +kernel

/-- Whether an operation of a type has begun, its engine with `p`. -/
def opBegins (o : Op) (s : State) (p : State → Op → Bool) : Bool :=
  s.tidy && s.mayStart 7 o && s.turn 7 o && (s.step? 7).isNone && decide (s.op? 7 = some o) &&
    match (s.begin 7 o).op? 7 with
    | some o1 => o1.checked && o1.fin.isNone && ((s.begin 7 o).engineFor o1.pool).isSome && p (s.begin 7 o) o1
    | none => false

/-- Whether a channel action succeeds, its value and the state after with `p`. -/
def chDone {α : Type} (a : ChM α) (s : State) (p : α → State → Bool) : Bool :=
  match a.run s with
  | .ok x t => p x t
  | .error _ _ => false

/-- An NVMe target and a Florix one. -/
def target (kind : Nat) : Word × Word × Word := (BitVec.ofNat 64 kind, 0x11, 0x5A)

/-- The crossing 0x11, open on link 15, which is up. -/
def crossing : Xing :=
  { Xing.none with entry := [BitVec.ofNat 64 (0x21 + 0x42 * 2 ^ 8 + 0x20 * 2 ^ 16 + 0x22 * 2 ^ 24 + 0xF * 2 ^ 40 + 2 ^ 56), 9, 0, 0, 0, BitVec.ofNat 64 (4 * 2 ^ 10), 0, 0]
                   st := 2, version := 0x42, epoch := 1 }

/-- The channel with that crossing. -/
def flx0 : State := ((ch0.setReg 0xD301C0 3).setReg 0xD01000 5).setXing 0x11 crossing

theorem witness_steps :
    (let o := { op (desc 5 4 0x3000 0x3800 (0 + 0 * 2 ^ 32)) with checked := true, started := true }
     opBegins o (withOp o) (fun s o1 => match s.cmpEngine 7 o1.pool with | some e => !s.unitBusy e | none => false)) = true ∧
    (let o := { op (desc 4 4 0x3000 0x3800) with checked := true, started := true }
     opBegins o (withOp o) (fun s o1 => chDone (ranges1 5 o1.desc) s (fun r u1 => chDone (chPiecesAll 5 false (sliceRanges r 0 4)) u1 (fun src u2 =>
       chDone (chPieces 5 true (dw o1.desc 3) 4) u2 (fun dst u3 => chDone (chReadPieces 0 src) u3 (fun d u4 =>
       chDone (chWritePieces dst d) u4 (fun _ _ => true)))))) ) = true ∧
    [1, 2].all (fun ty =>
      let o := { op (desc ty 512 0x3000 0) with checked := true, started := true, target := some (target 1) }
      opBegins o (withOp o) (fun s o1 => decide (tKind (target 1) = 1 ∧ bits (dw o1.desc 0) 47 32 ≠ 0xFFFF) &&
        chDone (ranges1 5 o1.desc) s (fun r u1 => chDone (chPiecesAll 5 (decide (ty = 1)) (sliceRanges r 0 512)) u1 (fun _ _ => true)))) = true ∧
    (let o := { op (desc 1 512 0x3000 0) with checked := true, started := true, target := some (target 2) }
     opBegins o (withOp o flx0) (fun s o1 => (match opRemote o1 with
       | some (x, _, _, _) => decide (x = 0x11) && decide ((s.xing x).st = 2 ∧ (s.xing x).closing = 0 ∧ (s.xing x).outs.length < 1024) &&
           !(s.xing x).peerClosed
       | none => false) && !o1.degraded && decide ((s.jent 7).ts = 0) &&
       chDone (ranges1 5 o1.desc) s (fun r u1 => chDone (chPiecesAll 5 true (sliceRanges r 0 512)) u1 (fun _ _ => true)))) = true ∧
    (let o := { op (desc 3 512 0x3000 0) with checked := true, started := true, degraded := true }
     opBegins o (withOp o) (fun s o1 => o1.degraded && o1.target.isNone &&
       chDone (ranges1 5 o1.desc) s (fun r u1 => chDone (chPiecesAll 5 false (sliceRanges r 0 512)) u1 (fun _ _ => true)))) = true ∧
    (let o := { op (desc 4 512 0x3000 0x3800) with checked := true, started := true }
     let s := (withOp o).setStep 7 (some { step0 with localDone := true })
     s.pwr.phase = .running ∧ s.tidy = true ∧ s.op? 7 = some o ∧ (s.step? 7).isSome = true ∧ o.fin = none ∧ dType o.desc ≠ 3) ∧
    (let o := { op (desc 4 512 0x3000 0x3800) with checked := true, started := true }
     let s := { withOp o with vol := { ch0.vol with turns := [(5, (1, 0))] } }
     let s1 : State := (s.setVcf 5 { s.vcf 5 with share := 1 })
     let p : Op := { o with pool := 4 }
     let q : Qp := { ch0.qp 3 with vcf := 6, loc := 0 }
     let t := (((s1.setVcf 6 { ch0.vcf 5 with share := 1 }).setQp 4 q).setOp 8 p).setJent 8 { Jent.free with st := 1, vcf := 6, qp := 0, seq := 2 }
     t.tidy = true ∧ t.op? 7 = some o ∧ t.turn 7 o = false) := by decide +kernel

/-- A DECOMPRESS step of an empty final stored block. -/
theorem witness_engine_steps :
    (let o := { op (desc 6 5 0x3000 0x3800) with checked := true, started := true }
     let s := { withOp o with mem := { (withOp o).mem with cur := [(0x3000, 1), (0x3003, 0xFF), (0x3004, 0xFF)] } }
     opBegins o s (fun s o1 => match s.cmpEngine 7 o1.pool with
       | some e => !s.unitBusy e && chDone (decompressStep 7 e 0 o1 (s.jent 7)) s (fun _ _ => true)
       | none => false)) = true := by decide +kernel

theorem witness_paths :
    (let s := ((withOp (op (desc 1 512 0x3000 0))).setStep 7 (some step0)).setReg 0x402048 (BitVec.ofNat 64 (2 * 2 ^ 20))
     s.tidy = true ∧ s.step? 7 = some step0 ∧ s.op? 7 = some (op (desc 1 512 0x3000 0)) ∧ s.pwr.phase = .running ∧ s.mainOn = true ∧
       s.regF 0x402048 22 20 = 2 ∧ dType (desc 1 512 0x3000 0) = 1 ∧ (0x3000, 512) ∈ step0.mem ∧ 0x3000 ≤ 0x31FF ∧
       (match (chWritePieces ((piecesOf 0x31FF 1).map (fun p => (p.1 * 256 + p.2.1, p.2.2))) [7]).run s with | .ok _ _ => true | _ => false) = true ∧
       (match s.readAbs 0x3000 8 with | .ok _ _ => true | _ => false) = true) ∧
    ((ch0.setReg 0x402048 (BitVec.ofNat 64 (3 * 2 ^ 20))).regF 0x402048 22 20 = 3) ∧
    (let s := (withOp (op (desc 1 512 0x3000 0))).setStep 7 (some { step0 with ctrlr := none })
     s.tidy = true ∧ s.step? 7 = some { step0 with ctrlr := none }) ∧
    (let o := { op (desc 5 4 0x3000 0x3800) with checked := true }
     let s := (List.range 8).foldl (fun (s : State) e => s.setReg (0xC00000 + e * 0x1000) 1) (withOp o)
     s.step? 7 = none ∧ s.op? 7 = some o ∧ (List.range 8).all (fun e => decide (s.regF (0xC00000 + e * 0x1000) 1 0 ≠ 0)) = true) ∧
    (let o := { op (desc 7 4 0x3000 0x3800) with checked := true }
     let s := (List.range 16).foldl (fun (s : State) e => s.setReg (0xC10010 + e * 0x1000) 1) (withOp o)
     (s.cipFor 5).all (fun e => decide (s.regF (0xC10010 + e * 0x1000) 1 0 ≠ 0)) = true) := by decide +kernel

theorem witness_upstream :
    (let s := ch0.setReg 0x3002F8 (BitVec.ofNat 64 (2 ^ 20 + 512 * 2 ^ 28 + 16 * 2 ^ 40))
     s.tidy = true ∧ s.pwr.phase = .running ∧ bit (s.reg 0x3002F8) 20 = true ∧ s.regF 0x3002F8 39 28 = 512 ∧ s.regF 0x3002F8 51 40 = 16 ∧
       s.raisable 527 = true ∧ s.hubPieces (s.regF 0x3002F8 27 22) 0xFFFFF 8 true = none ∧
       (match s.hubPieces (s.regF 0x3002F8 27 22) 0x3000 8 true with
        | some l => (match (chWritePieces l [1, 2, 3, 4, 5, 6, 7, 8]).run s with | .ok _ _ => true | _ => false) &&
            (match (chReadPieces 0 l).run s with | .ok _ _ => true | _ => false)
        | none => false) = true ∧ s.hubPieces (s.regF 0x3002F8 27 22) 0x3000 8 true = some [(0x3000, 8)] ∧
       s.ownLine (0x3000 / 256) = some ⟨0x30, true, 0, 0x3000⟩ ∧ s.portState 0 = 2 ∧ s.txnOpen (0x3000 / 256) = false ∧
       s.man (0x3000 / 256) 0 = Man.none) ∧
    (ch0.setReg 0x300078 2).regF 0x300078 2 0 = 2 ∧ (ch0.setReg 0x300078 3).regF 0x300078 2 0 = 3 ∧
      ch0.live.plan.get (0x0702 * 65536 + 15) 0 ≠ 1 := by decide +kernel

/-! ## Witnesses: Florix -/

theorem witness_florix_commands :
    (let s := ((flx0.setReg 0xD01008 0x40001).setXing 0x11 { crossing with st := 0 })
     s.tidy = true ∧ s.srcMay (.lp 0) 1 = true ∧ s.pwr.phase = .running ∧ bit (s.reg 0xD01008) 0 = true ∧
       (match s.readAbs (s.regF 0xD01008 51 18 * 262144 + 64 * 0x11) 64 with
        | .ok (d, .good) u => decide (u.entryCode (clampEntry d).2 = 0)
        | _ => false) = true ∧ s.vol.flxWait = none ∧
       (let a := s.regF 0xD01008 51 18 * 262144 + 64 * 0x11
        let u := s.withCaches (fun c => { c with txns := [⟨⟨.rds, 1, a / 256, 0, []⟩, [], [], false, true, true, false, 0⟩] })
        (match u.readAbs a 64 with | .wait => true | _ => false) = true) ∧ (s.xing 0x11).st = 0 ∧ (s.xing 0x11).valid = true ∧ (s.xing 0x11).initiate = true ∧ s.epochCount 0x11 + 1 ≤ 0xFFFFFFFE ∧
       entryFixed crossing.entry = entryFixed (s.xing 0x11).entry) ∧
    (let x := { crossing with st := 4, entry := [BitVec.ofNat 64 1] }
     x.valid = true ∧ x.initiate = false) ∧
    (let s := { flx0 with nv := { flx0.nv with cfg := { flx0.nv.cfg with flxEpochs := [(0x11, 0xFFFFFFFE)] } } }
     0xFFFFFFFE < s.epochCount 0x11 + 1) ∧
    (flx0.xing 0x11).st = 2 ∧ (flx0.xing 0x11).closing = 0 ∧ (flx0.xing 0x11).outs = [] ∧ (flx0.xing 0x11).ins = [] ∧
    (flx0.xing 0x11).peerClosed = false ∧ flx0.regF 0xC1F000 15 0 = 0 ∧ flx0.srcKeel (.lp 0) = true ∧
    (let s := (flx0.setReg 0xC1F000 0x3FF)
     s.regF 0xC1F000 15 0 ≠ 0 ∧ s.regF 0xC1F000 15 0 ≠ 0x400 ∧ s.unitBusy 31 = false ∧
       ((withOp (op (desc 7 4 0 0)) s).setStep 7 (some { step0 with unit := some 31 })).unitBusy 31 = true) := by decide +kernel

/-- A frame's header for that crossing. -/
def hdr (seq : BitVec 48) (epoch : BitVec 32 := 1) (zero : Bool := true) : FlxHdr := ⟨15, false, false, zero, true, 0x42, 0x11, 0x22, seq, 0, 0, epoch⟩

/-- Window 7 over 0x4000 to 0x4FFF, readable and writable by any crossing. -/
def win0 : State :=
  ((flx0.setReg 0xD020E0 0x4007).setReg 0xD020E8 0x1000).setReg 0xD020F8 1

theorem witness_florix_frames :
    (let x := win0.xing 0x11
     win0.tidy = true ∧ win0.pwr.phase = .running ∧ win0.flxSt 15 = 3 ∧ x.st = 2 ∧ x.peerXid = 0x22 ∧ x.epoch = 1 ∧ protOk x (hdr 1) = true ∧
       protOk x { hdr 1 with prot := true } = false) ∧
    (let v := (win0.flxCounted (hdr 1024) 34).flxAcked (hdr 1024)
     (v.xing 0x11).ack < 1024 ∧ 1024 ≤ (v.xing 0x11).ack + 1024 ∧ 1024 ∉ (v.xing 0x11).later ∧ (v.xing 0x11).recorded 5 = none ∧
       (v.xing 0x11).ins.get 5 none = none ∧
       v.winCheck 0x11 true ⟨5, 7, 0, 0, 2, 0⟩ = 0 ∧ v.winCheck 0x11 false ⟨5, 7, 0, 0xFFE, 2, 0⟩ = 0 ∧ v.winCheck 0x11 true ⟨5, 7, 0, 0xFFF, 2, 0⟩ = 4 ∧
       v.winCheck 0x11 false ⟨5, 8, 0, 0, 2, 0⟩ = 1 ∧ bit (v.winReg 7 0) 0 = true ∧
       (match v.hubPieces (bits (v.winReg 7 0) 8 3) (bits (v.winReg 7 0) 51 12 * 4096) 2 true with
        | some ps => (match (chWritePieces ps [1, 2]).run v with | .ok _ _ => true | _ => false) &&
            (match readUntil v ps with | some (_, st, _) => decide (st ≠ 7) | none => false)
        | none => false) = true) ∧
    (let s := win0.setXing 0x11 { crossing with record := [(5, 0, 2)] }
     (s.xing 0x11).recorded 5 = some (0, 2)) ∧
    (let p : FlxOut := ⟨7, true, 7, 0, 512, [(0x3000, 512)], 0, none⟩
     let s := win0.setXing 0x11 { crossing with outs := [(5, some p)] }
     (s.xing 0x11).outs.get 5 none = some p ∧ p.read = true ∧ 510 + 2 ≤ p.len ∧
       (match (chWritePieces (slicePieces p.mem 510 2) [1, 2]).run s with | .ok _ _ => true | _ => false) = true) ∧
    (let p : FlxHello := ⟨0x20, 0x42, false, false, 9, 2⟩
     let s := win0.setXing 0x11 { crossing with st := 1 }
     (s.xing 0x11).valid = true ∧ s.helloCode 0x11 (hdr 0) p = 0 ∧ ¬ p.ident.toNat < s.flxIdent.toNat ∧ s.helloCode 0x11 (hdr 0) { p with ident := 8 } = 2 ∧
       (win0.xing 0x11).epoch < p.epoch.toNat ∧ win0.helloCode 0x11 (hdr 0) p = 0) ∧
    (let p : FlxHello := ⟨0x20, 0x42, false, false, 9, 2⟩
     let s := win0.setXing 0x11 { crossing with st := 1, proposed := 2 }
     (s.xing 0x11).proposed = 2 ∧ p.ident = (s.xing 0x11).e 1 ∧ ((s.xing 0x11).choose 0x41 0x41).isSome = true ∧ protOk (s.xing 0x11) (hdr 0 2) = true) := by
  decide +kernel

theorem witness_florix_timers :
    (let x := crossing
     flx0.tidy = true ∧ flx0.pwr.phase = .running ∧ (flx0.xing 0x11).st = 2 ∧ flx0.xUp 0x11 = true ∧ x.initiate = true ∧ flx0.epochCount 0x11 + 1 ≤ 0xFFFFFFFE ∧
       x.triesMax = 4) ∧
    (let f (n : Nat) : FlxFrame := ⟨9, 0x04, [], n, none⟩
     (let s := flx0.setXing 0x11 { crossing with unacked := [f 3] }
      (s.xing 0x11).unacked.find? (fun g => decide (g.seq = 9 ∧ 0 < g.tries)) = some (f 3) ∧ (f 3).tries < (s.xing 0x11).triesMax ∧
        0x30 ≤ (s.xing 0x11).version) ∧
     (let s := flx0.setXing 0x11 { crossing with unacked := [f 4] }
      (s.xing 0x11).triesMax ≤ (f 4).tries ∧
        (((List.range (s.xing 0x11).links.length).map (fun i => ((s.xing 0x11).link + 1 + i) % (s.xing 0x11).links.length)).find?
          (fun i => decide (s.flxSt ((s.xing 0x11).links.getD i 0) = 3))) = some 0)) ∧
    (let two := { crossing with entry := (BitVec.ofNat 64 (0x21 + 0x42 * 2 ^ 8 + 0x20 * 2 ^ 16 + 0x22 * 2 ^ 24 + 0x0F * 2 ^ 40 + 2 * 2 ^ 56)) :: crossing.entry.tail, link := 1 }
     let s := flx0.setXing 0x11 two
     (s.xing 0x11).link ≠ 0 ∧ s.flxSt ((s.xing 0x11).links.headD 0) = 3) ∧
    (let q : FlxIn := ⟨false, 7, 0, 2, [0], 2, none⟩
     let s := flx0.setXing 0x11 { crossing with ins := [(5, some q)] }
     (s.xing 0x11).ins.sorted = true ∧ (s.xing 0x11).ins.get 5 none = some q ∧ q.len ≤ q.placed ∧ s.inHeld q = false ∧
       (let t := (((s.setReg 0xD020E0 0x4007).setReg 0xD020E8 0x1000).setReg 0xD020F8 1)
        { t with vol := { t.vol with held := [(0, [⟨0x40, [], 0, false, false⟩])] } }.inHeld q = true)) ∧
    ({ crossing with st := 1, resumed := true }.st = 1 ∧ { crossing with st := 4 }.version = 0x42) ∧
    (flx0.mainOn = true ∧ flx0.flxSt 15 = 3) ∧
    (let s := ((flx0.setReg 0xD301C0 1).setReg 0xD30000 1).setReg 0xD301C8 0x123456
     s.flxSt 15 = 1 ∧ bit (s.reg (0xD00000 + 15 / 4 * 0x10000)) 0 = true ∧ s.reg (0xD301C0 + 8) ≠ 0) := by decide +kernel

/-! ## Witnesses: root of trust, faults, tally, registers -/

theorem witness_rtu :
    s0.rtuWho (.lp 0) = some (1, 0) ∧ s0.rtuWho .service = some (2, 2) ∧ s0.regF 0x40008 1 0 = 0 ∧
    (let s := (s0.setReg 0x40000 1).setReg 0x40008 1
     s.tidy = true ∧ s.rtuOn = true ∧ s.regF 0x40008 1 0 = 1 ∧ s.nv.otp.cycle ≠ 3 ∧ s.pendCode = 0 ∧ s.partF = false ∧
       (s.setReg 0x41020 32).rtuBuf 32 1 = [32] ∧ s.rtuWho .service ≠ some (1, 2) ∧ 2 ∉ rtuFrom 7) ∧
    (let s := { (s0.setReg 0x40000 1).setReg 0x40008 1 with pwr := { s0.pwr with part := 3 } }
     s.partF = true ∧ s.nv.otp.cycle = 0 ∧ s.pendCode = 0 ∧ bits (leWord (tok ((s.setReg 0x41000 0x101).rtuBuf 0 0xC48) 0 8)) 10 8 = 1 ∧
       bits (leWord (tok ((s.setReg 0x41000 0x201).rtuBuf 0 0xC48) 0 8)) 10 8 = 2) := by decide +kernel

theorem witness_faults :
    s0.tidy = true ∧ s0.std.standby = true ∧ s0.std.reports = [] ∧ s0.std.injected = [] ∧ (fcClassOf 0x215).isSome = true ∧ (fcClassOf 0x1D8).isSome = true ∧
    1 < bits ((s0.setReg (0x24000 + 8 * 0x1D8) 0x3E80200).reg (0x24000 + 8 * 0x1D8)) 15 8 ∧
    (let s (a n : Nat) := s0.setReg (0x24000 + 8 * n) (BitVec.ofNat 64 (a + 1 * 2 ^ 8 + 1000 * 2 ^ 16))
     bits ((s 0 0x1D8).reg (0x24000 + 8 * 0x1D8)) 15 8 ≤ 1 ∧ bits ((s 4 0x210).reg (0x24000 + 8 * 0x210)) 2 0 = 4 ∧ (fcClassOf 0x210).isSome = true ∧
       unitOf 0x210 = none ∧ bits ((s 3 0x1D8).reg (0x24000 + 8 * 0x1D8)) 2 0 = 3 ∧ unitOf 0x1D8 = some (.flx, 0) ∧
       ((fcClassOf 0x1D8).map (·.1)) = some 16 ∧ s0.isFenced .flx 0 = false) ∧
    s0.powerState = 0 ∧ s0.pwr.phase = .running ∧ s0.srcKeel (.lp 0) = true ∧ s0.nv.otp.cycle = 0 ∧
    (let s := s0.setReg 0x20010 1
     s.regF 0x20008 37 24 ≠ 0 ∧ s.regF 0x20010 15 0 ≠ 0) ∧
    (let v : Word := 0x5D8
     bits v 11 11 = 0 ∧ bits v 31 13 = 0 ∧ bit v 12 = false ∧ 0x400 ≤ bits v 10 0) ∧
    (let s := { s0 with std := { s0.std with fenced := [(UnitKind.flx, 0, 16)] } }
     (s.std.fenced.find? (fun f => decide (f.1 = .flx ∧ f.2.1 = 0))) = some (.flx, 0, 16) ∧ s.std.readmits.get (UnitKind.flx.code * 1024) 0 < 3 ∧
       (s.regF (0x20100 + 8 * 16) 23 16 = 0 ∨ s.std.readmits.get (UnitKind.flx.code * 1024) 0 < s.regF (0x20100 + 8 * 16) 23 16)) ∧
    (let d : BitVec 32 := BitVec.ofNat 32 (2 ^ 31 + 0x101 * 2 ^ 4 + 12)
     let s (c : CSt) := s0.setCline 79 0x101 { CLine.none with st := c, valid := 15, way := 12 }
     d.getLsbD 31 = true ∧ (s .e).tidy = true ∧ (s .e).lineInWay 79 (bits (d.setWidth 64) 17 4) (bits (d.setWidth 64) 3 0) = some 0x101 ∧
       ((s .e).cline 79 0x101).st.dirty = false ∧ ((s .m).cline 79 0x101).st.dirty = true ∧ ((s .m).lineRef 0x101).isSome = true ∧
       (s .m).lineInWay 79 (bits (d.setWidth 64) 17 4) (bits (d.setWidth 64) 3 0) = some 0x101 ∧ (fcClassOf 0x14F).isSome = true ∧
       1 < bits (((s .m).setReg (0x24000 + 8 * 0x14F) 0x3E80200).reg (0x24000 + 8 * 0x14F)) 15 8) ∧
    s0.islandsOn = true ∧ [124, 0, 0, 0, 0].foldl max 0 < 125 ∧ 115 ≤ [124, 0, 0, 0, 0].foldl max 0 ∧ [114, 0, 0, 0, 0].foldl max 0 < 115 ∧
    1100 < (([1101, 0, 0, 0, 0].map (min 4095)).sum) ∧ s0.warns 5 95 = true := by decide +kernel

theorem witness_tally :
    s0.tidy = true ∧ s0.pwr.phase = .running ∧ s0.live.tallySeq = 0 ∧ s0.ringValid = false ∧ s0.srcKeel (.lp 0) = true ∧
    (let s := { (s0.setReg 0x50010 0x10001).setReg 0x50018 2 with vol := { s0.vol with dumps := [(0x10000, List.replicate 8192 0)] } }
     s.ringValid = true ∧ s.ringCount ≤ 65536 ∧
       (match writeRecordLines s (((List.range 31).map (fun i => (0x100 + i + 1, List.replicate 256 0))) ++ [(0x100, List.replicate 256 0)]) with
        | .ok _ u => (s.noteHeld u (2 ^ 22)).accepted (2 ^ 22)
        | _ => false) = true ∧ s.vol.dumpSent = false ∧
       (let t := { s with vol := { s.vol with dumpSent := true, heldFor := [(2 ^ 22, 0)] } }
        t.vol.dumpSent = true ∧ t.accepted (2 ^ 22) = false)) ∧
    s0.counterExists 799 = true ∧ s0.srcMay (.lp 0) 1 = true ∧ (60 : LpId).val ≠ 0 ∧
    (7, 7) ∈ { s0 with vol := { s0.vol with sampleDue := [(7, 7)] } }.vol.sampleDue ∧ s0.pwr.lanes.sorted = true ∧ s0.pwr.rails.sorted = true ∧
    s0.islandsOn = true ∧ s0.std.pwrgood = true ∧
    (let s := { s0 with pwr := { s0.pwr with rails := [(0, ⟨700, 850, true, false⟩)] } }
     (s.rail 0).ulinear = true ∧ (s.rail 0).late = false ∧ 700 + 5 < (s.rail 0).command) := by decide +kernel

theorem witness_registers :
    s0.tidy = true ∧ s0.busMay (.lp 0) 0x400038 = true ∧ s0.regExists 0x400038 = true ∧ s0.regExists 0x400039 = false ∧ s0.regExists 0xC1F010 = true ∧
    s0.regExists 0x80000 = true ∧ s0.regExists 0x20 = true ∧ (regInfo 0x20).isSome = true ∧ (regInfo 0x67FF8).isSome = true ∧ s0.std.standby = true ∧
    s0.svcReadStatus 0x18 = 0 ∧ s0.svcReadStatus 4 ≠ 0 ∧ s0.svcWriteStatus 0x40008 = 0 ∧ s0.svcWriteStatus 0x18 ≠ 0 ∧ s0.regF 0x40008 1 0 = 0 ∧
    (risen .waiting 5).svcWriteStatus 0x30010 = 0 ∧ s0.std.svc.dyn = none ∧
    (let s := { s0 with std := { s0.std with fc := [(0x18, 0x40)] } }
     s.debug = 2 ∧ s.probeSlip 59 7 = true ∧ s.probeFull = true ∧
       (match s.writeAbs 999 0x3000 [7] with | .ok _ _ => true | _ => false) = true ∧
       (match s.readAbs 0x3000 1 with | .ok (_, .good) _ => true | _ => false) = true) ∧ s0.debug = 0 := by decide +kernel

theorem witness_encodings :
    (Instr.customInstruction 0 5 0).wf = true ∧ encode (.customInstruction 0 5 0) ≠ [] ∧ (Instr.stpair 0 30 31 15 (.long 0)).wf = true ∧
      encode (.stpair 0 30 31 15 (.long 0)) ≠ [] ∧ (decodeWords 0 0b00000000001000100001100000000000#32 0).isSome = true := by decide +kernel

/-- A step that is taken from a state in canonical form, and one that idles in RUN. -/
theorem witness_steps_taken :
    State.reset.tidy = true ∧ (match step { s0 with pending := [.add 0 1 2 3] } with | .next t => t.tidy | _ => false) = true ∧
      s0.std.standby = true ∧ s0.std.pwrgood = true ∧ s0.pwr.phase = .running ∧ s0.vol.mfWait = none ∧ s0.vol.flxWait = none ∧
      { s0 with pwr := { s0.pwr with unbroken := true } }.pwr.unbroken = true := by decide +kernel

/-! ## A few steps by hand from the rules -/

/-- LP 0's slip after a step with one instruction waiting. -/
def after (s : State) (i : Instr) : Slip :=
  match step { s with pending := [i] } with
  | .next t => t.slip 0
  | _ => Slip.zero

/-- ADD wraps (R99). -/
theorem test_add_wraps : (after s0 (.add 0 7 5 1)).g.get 7 = 0x3F := by decide +kernel
/-- A divisor of 0 gives all ones (R104). -/
theorem test_div_by_zero : (after s0 (.div 0 7 1 4)).g.get 7 = 0xFFFFFFFFFFFFFFFF := by decide +kernel
/-- The most negative number over −1 is itself (R104). -/
theorem test_div_overflow : (after s0 (.div 0 7 6 5)).g.get 7 = 0x8000000000000000 := by decide +kernel
/-- SRA takes the count modulo 64 and keeps the sign (R99). -/
theorem test_sra : (after s0 (.sra 0 7 6 1)).g.get 7 = 0x8000000000000000 := by decide +kernel
/-- CMPLT is signed (R99). -/
theorem test_cmplt : (after s0 (.cmplt 0 7 5 1)).g.get 7 = 1 := by decide +kernel
/-- A taken branch counts from itself in words (R85, R102). -/
theorem test_br : (after s0 (.br 0 0x1FFFFF)).pc = 0xFFFFFFFFFFFFFFFC := by decide +kernel
/-- BAL leaves the next word's address (R102). -/
theorem test_bal : (after s0 (.bal 0 7 2)).g.get 7 = 4 ∧ (after s0 (.bal 0 7 2)).pc = 8 := by decide +kernel
/-- 1.0 + 1.0 = 2.0, exact (R115, R117). -/
theorem test_fadd : (after (onSlip (fun x => { x with f := x.f.set 1 0x3FF0000000000000 })) (.fadd 0 2 1 1 false)).f.get 2 = 0x4000000000000000 := by
  decide +kernel
/-- 0 / 0 is the canonical NaN with INVALID (R118, R59). -/
theorem test_fdiv_invalid : (after s0 (.fdiv 0 2 0 0 false)).f.get 2 = 0x7FF8000000000000 ∧
    bit (after s0 (.fdiv 0 2 0 0 false)).fpsr 8 = true := by decide +kernel
/-- A load reads memory little-endian (R81, R108). -/
theorem test_ldh : (after { s0 with mem := { s0.mem with cur := [(0x10040, 0x34), (0x10041, 0x12)], media := [(0x10040, 0x34), (0x10041, 0x12)] } }
    (.ldh 0 7 1 1 (.short 0))).g.get 7 = 0x1234 := by decide +kernel
/-- A store is read back through the store buffer (R289). -/
theorem test_store_forwarded :
    (match step { s0 with pending := [.std 0 2 1 1 (.short 0), .ldw 0 7 1 1 (.short 1)] } with
     | .next t => (match step t with | .next u => decide ((u.slip 0).g.get 7 = 0x11223344) | _ => false)
     | _ => false) = true := by decide +kernel
/-- A user-mode write of a keel register's TSBP is privileged: without a TSB the LP locks up (R62, R50). -/
theorem test_privileged :
    (match step { atLevel 3 with pending := [.mtc 0 6 1] } with | .next t => decide ((t.lp 0).st = .locked) | _ => false) = true := by decide +kernel
/-- An empty queue lets one nanosecond pass in RUN (log 2). -/
theorem test_idle : (match step { s0 with pwr := { s0.pwr with unbroken := true } } with | .next t => decide (t.live.time = 1) | _ => false) = true := by decide +kernel

/-! ## The spec's worked examples -/

/-- Section 2: LDD G5, [B3: G31 + 40] is 0x4CBF3005; with a displacement of 40,000 its long form is 0xCCBF3000, 0x00009C40 (R83). -/
theorem test_ldd_example :
    encode (.ldd 0 5 31 3 (.short 5)) = [0x4CBF3005#32] ∧ decodeWords 0 0xCCBF3000#32 0x9C40 = some (.ldd 0 5 31 3 (.long 40000)) := by
  decide +kernel
/-- Section 3: LDI.L G4, 0xA5; SHI G4, G4, SLL 32; ORI.L G4, G4, 0x80000001 (R101). -/
theorem test_constant_example :
    decodeWords 0 0xB0800000#32 0xA5 = some (.ldi 0 4 (.long 0xA5)) ∧ decodeWords 0 0x34840020#32 0 = some (.shi 0 4 4 0 32) ∧
      decodeWords 0 0xA8840000#32 0x80000001 = some (.ori 0 4 4 (.long 0x80000001)) := by decide +kernel
/-- Section 3: LVC to S with service 0x0102 is 0x1C402040 (R134). -/
theorem test_lvc_example : encode (.lvc 0 2 0x0102) = [0x1C402040#32] := by decide +kernel
/-- Section 5: XSUM G6, [B3: G9] of decode entry 5 is 0xF8C93005 (R86). -/
theorem test_custom_example : decodeWords 0 0xF8C93005#32 0 = some (.customInstruction 0 0xC93005 0) := by decide +kernel
/-- Section 3: 1,000,000 by 7 (R103). -/
theorem test_divide_example :
    (let s := onSlip (fun x => { x with g := (x.g.set 8 1000000).set 9 7 })
     (after s (.divu 0 7 8 9)).g.get 7 = 142857 ∧ (after s (.remu 0 7 8 9)).g.get 7 = 1) := by decide +kernel
/-- Section 3: PKS of +12345 and −346 with L = 5 (R125). -/
theorem test_packed_example :
    (let s := onSlip (fun x => { x with g := (x.g.set 9 0x5C34120000000000).set 11 0x6D34000000000000 })
     let t := after s (.pks 0 12 8 10 5)
     t.g.get 12 = 0 ∧ t.g.get 13 = 0x1C69120000000000 ∧ bit t.fpsr 13 = false) := by decide +kernel
/-- Section 2: CALLM with mask 0x0083 drops G31 by 48 and stores the tag 0x0083 first (R87). -/
theorem test_callm_example :
    (let t := after (onSlip (fun x => { x with g := x.g.set 31 0xFFC0 })) (.callm 0 1 0x0083)
     t.g.get 31 = 0xFF90 ∧ t.g.get 30 = 4 ∧ t.pc = 0x40) := by decide +kernel
/-- Section 9: offset 0x12345600 of a set of ports 0 to 7, 4 KiB granules (R324). -/
theorem test_interleave_example : placeOff [⟨[0, 1, 2, 3, 4, 5, 6, 7], 4096, 504, 0, 0⟩] 0x12345600 = some (5, 0x2468600) := by decide +kernel
/-- Section 6: of an A60, LP 22 is bound to twin 23 and twin 31 is a spare (R228). -/
theorem test_binding_example :
    (State.reset.bindingOrder 0xFFFFFFFFFFFFFFFF).getD 22 0 = 23 ∧ ((State.reset.bindingOrder 0xFFFFFFFFFFFFFFFF).drop 60).contains 31 = true := by
  decide +kernel
/-- Section 17: the selection of L2 misses sampled every 1,024 stands as written (R617). -/
theorem test_selection_example : clampSel 42 0x2582A07 = 0x2582A07 := by decide +kernel

end Sys2Proof.Tests
end

/-! ## LVC (R51) -/

section
namespace Sys2Proof.Machine

/-- The model's check of LVC's target is the table of R51. -/
theorem lvcAllowed_iff (cur target : BitVec 2) :
    lvcAllowed cur target = true ↔
      (cur = 3 ∧ target = 2) ∨ (cur = 2 ∧ (target = 1 ∨ target = 0)) ∨ (cur = 1 ∧ target = 0) := by
  revert cur target
  decide

/-- LVC's word in IWORD: the service number reaches the handler in bits 20:5 (R51, R96, R134). -/
theorem iwordOf_lvc (lp : LpId) (target : BitVec 2) (service : BitVec 16) :
    iwordOf (.lvc lp target service) =
      BitVec.ofNat 64 (0x07 * 2 ^ 26 + target.toNat * 2 ^ 21 + service.toNat * 2 ^ 5) := by
  have hfits : 0x07 * 2 ^ 26 + target.toNat * 2 ^ 21 + service.toNat * 2 ^ 5 < 2 ^ 32 := by omega
  simp only [iwordOf, encode, BitVec.toNat_ofNat, Nat.mod_eq_of_lt hfits]

/-- An LVC to an allowed target moves the PC on, then raises the level call into that target (R51, R134, R141). -/
theorem execLvc_of_allowed {lp : LpId} {target : BitVec 2} {service : BitVec 16} {s s1 : State}
    (hstart : s.startOf (.lvc lp target service) lp 0 = some s1)
    (hallowed : lvcAllowed (s1.slip lp).level target = true) :
    execLvc lp target service s =
      .next ((s1.setPc lp ((s1.slip lp).pc + 4)).takeException lp
        (excAt (s1.setPc lp ((s1.slip lp).pc + 4)) lp { excOf 0x0B 0 0 0 with target := some target }
          (iwordOf (.lvc lp target service)))) :=
  runLp_exc hstart (by simp [require, hallowed, nextPc, raiseExc])

/-- An LVC to any other target raises ILLEGAL with nothing changed (R51). -/
theorem execLvc_of_not_allowed {lp : LpId} {target : BitVec 2} {service : BitVec 16} {s s1 : State}
    (hstart : s.startOf (.lvc lp target service) lp 0 = some s1)
    (hrefused : lvcAllowed (s1.slip lp).level target = false) :
    execLvc lp target service s =
      .next (s1.takeException lp (excAt s1 lp excIllegal (iwordOf (.lvc lp target service)))) :=
  runLp_exc hstart (by simp [require, hrefused, raiseExc])

/-- Settles O19: the body of LVC raises the level call after moving the PC on, or ILLEGAL before, as the table of R51 decides. -/
theorem lvcCallsItsTarget : Obligations.LvcCallsItsTarget := by
  intro lp target service s s1 i cur allowed hstart
  have htable : lvcAllowed cur target = true ↔ allowed := lvcAllowed_iff cur target
  constructor
  · intro hallowed
    change execLvc lp target service s = _
    rw [execLvc_of_allowed hstart (htable.2 hallowed), excAt, slip_setPc, iwordOf_lvc]
  · intro hrefused
    exact execLvc_of_not_allowed hstart (Bool.eq_false_iff.2 (mt htable.1 hrefused))

end Sys2Proof.Machine
end

/-! ## DIV, DIVU, REM and REMU (R103, R104) -/

section
namespace Sys2Proof.Machine

/-- A register-to-register instruction that begins retires with its function of the two sources as its one result. -/
theorem aluRR_retires {i : Instr} {lp : LpId} {s s1 : State} (hstart : s.startOf i lp 0 = some s1) (d a b : Reg)
    (f : Word → Word → Word) :
    ∃ t, aluRR i lp d a b f s = .next t ∧
      s1.retiresAs t lp [] (fun x => x.result d (f (s1.g lp a) (s1.g lp b))) := by
  have hbody : (do
      modify (fun s : State => s.setG lp d (f (s.g lp a) (s.g lp b)))
      nextPc lp 1 : Act Unit).run s1 =
      .ok () ((s1.setG lp d (f (s1.g lp a) (s1.g lp b))).setPc lp ((s1.slip lp).pc + BitVec.ofNat 64 (4 * 1))) := by
    simp [nextPc]
  exact ⟨_, runLp_ok hstart hbody, retiresAs_setG _ _ _ _ _⟩

/-- The frame of `Runs` for a register-to-register instruction whose function is `r` of the first source wherever `pre` holds. -/
theorem runs_aluRR {i : Instr} {lp : LpId} {d a b : Reg} {f : Word → Word → Word} {pre : Word → Word → Prop} {r : Word → Word}
    (hexec : ∀ s, exec i s = aluRR i lp d a b f s) (hval : ∀ x y, pre x y → f x y = r x) :
    Runs i lp (fun s => pre ((s.slip lp).g.get a) ((s.slip lp).g.get b)) (fun _ x => x.result d (r (x.g.get a))) := by
  intro s s1 hstart hpre
  obtain ⟨t, hnext, hret⟩ := aluRR_retires hstart d a b f
  have hresult : f (s1.g lp a) (s1.g lp b) = r ((s1.slip lp).g.get a) := hval _ _ hpre
  rw [hresult] at hret
  exact ⟨t, (hexec s).trans hnext, hret⟩

section
variable (lp : LpId) (d a b : Reg) (s : State)

theorem exec_div : exec (.div lp d a b) s = aluRR (.div lp d a b) lp d a b divS s := rfl
theorem exec_divu : exec (.divu lp d a b) s = aluRR (.divu lp d a b) lp d a b divU s := rfl
theorem exec_rem : exec (.rem lp d a b) s = aluRR (.rem lp d a b) lp d a b remS s := rfl
theorem exec_remu : exec (.remu lp d a b) s = aluRR (.remu lp d a b) lp d a b remU s := rfl

end

theorem divS_of_divisor_zero (x y : Word) (hy : y = 0) : divS x y = 0xFFFFFFFFFFFFFFFF := if_pos hy
theorem divU_of_divisor_zero (x y : Word) (hy : y = 0) : divU x y = 0xFFFFFFFFFFFFFFFF := if_pos hy
theorem remS_of_divisor_zero (x y : Word) (hy : y = 0) : remS x y = x := if_pos hy
theorem remU_of_divisor_zero (x y : Word) (hy : y = 0) : remU x y = x := if_pos hy

/-- The quotient 2^63 of the smallest integer by -1 wraps to the smallest integer. -/
theorem divS_of_min_neg_one (x y : Word) (h : x = 0x8000000000000000 ∧ y = 0xFFFFFFFFFFFFFFFF) :
    divS x y = 0x8000000000000000 := by
  obtain ⟨rfl, rfl⟩ := h
  decide

theorem remS_of_min_neg_one (x y : Word) (h : x = 0x8000000000000000 ∧ y = 0xFFFFFFFFFFFFFFFF) : remS x y = 0 := by
  obtain ⟨rfl, rfl⟩ := h
  decide

/-- Each of the four division instructions is a register-to-register instruction of some function of words. -/
theorem exec_division {i : Instr} {lp : LpId} {d a b : Reg}
    (hi : i ∈ [Instr.div lp d a b, .divu lp d a b, .rem lp d a b, .remu lp d a b]) :
    ∃ f : Word → Word → Word, ∀ s, exec i s = aluRR i lp d a b f s := by
  simp only [List.mem_cons, List.not_mem_nil, or_false] at hi
  obtain rfl | rfl | rfl | rfl := hi
  · exact ⟨divS, exec_div lp d a b⟩
  · exact ⟨divU, exec_divu lp d a b⟩
  · exact ⟨remS, exec_rem lp d a b⟩
  · exact ⟨remU, exec_remu lp d a b⟩

/-- Settles O3: every division retires through `aluRR`, and the values of its function at the divisor 0 and at the smallest
integer by -1 are those of R104's table. -/
theorem divisionSpecialCases : Obligations.DivisionSpecialCases := by
  intro lp d a b two
  refine ⟨?div0, ?divu0, ?rem0, ?remu0, ?divMin, ?remMin, ?noException⟩
  case div0 => exact runs_aluRR (exec_div lp d a b) divS_of_divisor_zero
  case divu0 => exact runs_aluRR (exec_divu lp d a b) divU_of_divisor_zero
  case rem0 => exact runs_aluRR (exec_rem lp d a b) remS_of_divisor_zero
  case remu0 => exact runs_aluRR (exec_remu lp d a b) remU_of_divisor_zero
  case divMin => exact runs_aluRR (exec_div lp d a b) divS_of_min_neg_one
  case remMin => exact runs_aluRR (exec_rem lp d a b) remS_of_min_neg_one
  case noException =>
    intro i hi s s1 hstart
    obtain ⟨f, hexec⟩ := exec_division hi
    obtain ⟨t, hnext, hret⟩ := aluRR_retires hstart d a b f
    exact ⟨t, _, (hexec s).trans hnext, hret⟩

end Sys2Proof.Machine
end

/-! ## Loads of held lines and the gangway store buffer (R238, R289) -/

section
namespace Sys2Proof.Machine

/-! What a load reads is a function of the copies, of memory and of the LP's own stores. A load that hits leaves all three. -/

/-- State `t` is `s` but for what loads that hit change: counters of the tally, the L1s and replacement trees, and what the LP has in
flight other than its buffered stores. -/
structure State.readAlike (s t : State) (lp : LpId) : Prop where
  frame : t = { s with live := { s.live with tally := t.live.tally }
                       vol := { s.vol with lps := t.vol.lps, sampleDue := t.vol.sampleDue, caches := t.vol.caches } }
  dir : t.vol.caches.dir = s.vol.caches.dir
  gangway : (t.lpv lp).gangway = (s.lpv lp).gangway

theorem readAlike_refl (s : State) (lp : LpId) : s.readAlike s lp := ⟨rfl, rfl, rfl⟩

theorem readAlike_trans {s t u : State} {lp : LpId} (h : s.readAlike t lp) (k : t.readAlike u lp) : s.readAlike u lp :=
  ⟨k.frame.trans (by rw [h.frame]), k.dir.trans h.dir, k.gangway.trans h.gangway⟩

section
variable {s t : State} {lp : LpId} (h : s.readAlike t lp)
include h

theorem readAlike_mem : t.mem = s.mem := by rw [h.frame]
theorem readAlike_lp (n : LpId) : t.lp n = s.lp n := by rw [h.frame]; rfl
theorem readAlike_slip (n : LpId) : t.slip n = s.slip n := by rw [h.frame]; rfl
theorem readAlike_lineRef (ln : Nat) : t.lineRef ln = s.lineRef ln := by rw [h.frame]; rfl
theorem readAlike_pathOf (dev : Bool) (lvl : BitVec 2) (a : Nat) : t.pathOf dev lvl a = s.pathOf dev lvl a := by
  rw [h.frame]; rfl

theorem readAlike_cline (agent ln : Nat) : t.cline agent ln = s.cline agent ln := by simp only [State.cline, h.dir]

theorem readAlike_l2Miss (agent ln off n : Nat) : t.l2Miss agent ln off n = s.l2Miss agent ln off n := by
  simp only [State.l2Miss, readAlike_cline h]

theorem readAlike_linePoison (r : LineRef) : t.linePoison r = s.linePoison r := by
  simp only [State.linePoison, readAlike_mem h]

theorem readAlike_byteAt (a : Nat) : t.byteAt a = s.byteAt a := by
  simp only [State.byteAt, readAlike_lineRef h, readAlike_mem h]

theorem readAlike_lpBytes (a n : Nat) : t.lpBytes lp a n = s.lpBytes lp a n := by
  simp only [State.lpBytes, h.gangway, readAlike_byteAt h]

theorem readAlike_holdsPiece {bank : BankNo} {p : Nat × Nat} (hp : s.holdsPiece lp bank p) : t.holdsPiece lp bank p := by
  simpa only [State.holdsPiece, readAlike_slip h, readAlike_pathOf h, readAlike_lp h, readAlike_l2Miss h, readAlike_cline h,
    readAlike_lineRef h, readAlike_linePoison h] using hp

end

/-! The updates a load that hits makes. -/

theorem readAlike_withCaches (s : State) (lp : LpId) {f : Caches → Caches} (hf : (f s.vol.caches).dir = s.vol.caches.dir) :
    s.readAlike (s.withCaches f) lp := ⟨rfl, hf, rfl⟩

theorem readAlike_useWay (s : State) (lp : LpId) (id k set way : Nat) : s.readAlike (s.useWay id k set way) lp :=
  readAlike_withCaches s lp rfl

theorem readAlike_touchWay (s : State) (lp : LpId) (agent ln : Nat) : s.readAlike (s.touchWay agent ln) lp :=
  readAlike_useWay s lp _ _ _ _

/-- Using an L1 writes its own lines and trees alone. -/
theorem readAlike_l1Use (s : State) (lp : LpId) (id ln : Nat) (sec : BitVec 4) : s.readAlike (s.l1Use id ln sec) lp := by
  have hput (l1 : Map (Option (Nat × BitVec 4))) (w : Nat) :
      s.readAlike ((s.withCaches (fun x => { x with l1 := l1 })).useWay (80 + id) 3 (l1Set ln) w) lp :=
    readAlike_trans (readAlike_withCaches s lp rfl) (readAlike_useWay _ lp _ _ _ _)
  unfold State.l1Use
  simp only
  split
  · exact readAlike_refl s lp
  · split
    · exact hput _ _
    · split
      · exact readAlike_refl s lp
      · split <;> exact hput _ _

theorem readAlike_countLp (s : State) (lp : LpId) (c n : Nat) : s.readAlike (s.countLp lp c n) lp := by
  have hframe := (onlyLp_count s lp (8 * lp.val) c n 8).1
  rw [count_live_lps, count_free] at hframe
  refine ⟨?_, by rw [countLp_vol_caches], by rw [countLp_lpv]⟩
  rw [countLp_vol_caches]
  exact hframe

theorem readAlike_countMisses (s : State) (lp : LpId) (ln off n : Nat) : s.readAlike (s.countMisses lp false ln off n) lp := by
  have hone := readAlike_countLp s lp 0x06 1
  unfold State.countMisses
  simp only [Bool.false_eq_true, if_false]
  split
  · exact readAlike_refl s lp
  · split
    · exact readAlike_trans hone (readAlike_countLp _ lp 0x07 1)
    · exact hone

/-- An item for lane B leaves the stores of the window it enters. -/
theorem readAlike_laneItem (s : State) (lp : LpId) (kind : Nat) (d : List Byte) : s.readAlike (s.laneItem lp kind d) lp := by
  refine ⟨rfl, rfl, ?_⟩
  simp only [State.laneItem, lpv_setLpv, if_true, LpVol.gangway, Option.map_map]
  rfl

theorem readAlike_laneRead (s : State) (lp : LpId) (a : Nat) (d : List Byte) : s.readAlike (s.laneRead lp false a d) lp := by
  have hitems (f : Nat → List Byte) (l : List Nat) (u : State) :
      u.readAlike (l.foldl (fun v i => v.laneItem lp 1 (f i)) u) lp := by
    induction l generalizing u with
    | nil => exact readAlike_refl u lp
    | cons i r ih => exact readAlike_trans (readAlike_laneItem u lp 1 (f i)) (ih _)
  exact readAlike_trans (readAlike_laneItem s lp 1 _) (hitems _ _ _)

/-! A load that hits. -/

theorem foundHere_good {s : State} {ln : Nat} {r : LineRef} (hr : s.lineRef ln = some r) (hp : s.linePoison r = false) :
    s.foundHere ln .good = .good := by
  simp [State.foundHere, hr, hp]

theorem endMooring_of_not_moored {s : State} {agent ln : Nat} (h : (s.cline agent ln).moored = false) :
    s.endMooring agent ln = s := by
  simp [State.endMooring, h]

/-- A read that hits in the twin's L2 only touches the way (R238). -/
theorem cacheRead_of_hit {s : State} {t ln off n : Nat} {r : LineRef} (hhit : s.l2Miss t ln off n = false)
    (hmoored : (s.cline t ln).moored = false) (hr : s.lineRef ln = some r) (hp : s.linePoison r = false) :
    s.cacheRead t ln off n = .ok .good (s.touchWay t ln) := by
  have hgood : (s.touchWay t ln).foundHere ln .good = .good := foundHere_good hr hp
  have hend : (s.touchWay t ln).endMooring t ln = s.touchWay t ln := endMooring_of_not_moored hmoored
  simp [State.cacheRead, hhit, hgood, hend]

/-- A read of a held piece through the L1D finds it good, in the L1 or in the L2 (R207, R237, R238). -/
theorem readLine_of_holdsPiece {s : State} {lp : LpId} {bank : BankNo} {p : Nat × Nat} (hp : s.holdsPiece lp bank p) :
    ∃ t, s.readLine (64 + (s.lp lp).twin.val) (p.1 / 256) (p.1 % 256) p.2 = .ok .good t ∧ s.readAlike t lp := by
  obtain ⟨-, -, hhit, hmoored, r, hr, hpoison⟩ := hp
  have htwin : (64 + (s.lp lp).twin.val) % 64 = (s.lp lp).twin.val := by omega
  unfold State.readLine
  simp only [htwin]
  split
  · have h := readAlike_l1Use s lp (64 + (s.lp lp).twin.val) (p.1 / 256) (sectorsOf (p.1 % 256) p.2)
    rw [foundHere_good hr hpoison, endMooring_of_not_moored (by rw [readAlike_cline h, hmoored])]
    exact ⟨_, rfl, h⟩
  · rw [cacheRead_of_hit hhit hmoored hr hpoison]
    exact ⟨_, rfl, readAlike_trans (readAlike_touchWay s lp _ _) (readAlike_l1Use _ lp _ _ _)⟩

/-- A part that ends well hands its value and its state to the next. -/
theorem run_bind_of_ok {α β : Type} {x : Act α} {s t : State} {v : α} (h : x.run s = .ok v t) (f : α → Act β) :
    (x >>= f).run s = (f v).run t := by
  change EStateM.bind x f s = f v t
  unfold EStateM.bind
  rw [show x s = .ok v t from h]

theorem act_run_get (s : State) : (get : Act State).run s = .ok s s := rfl
theorem act_run_set (s t : State) : (set t : Act PUnit).run s = .ok ⟨⟩ t := rfl
theorem act_run_modify (s : State) (f : State → State) : (modify f : Act PUnit).run s = .ok ⟨⟩ (f s) := rfl

/-- One held piece: a load reads what the LP's own stores and memory give, and goes on with the next pieces. -/
theorem readCached_cons_of_holdsPiece {s : State} {lp : LpId} {bank : BankNo} {p : Nat × Nat} (hp : s.holdsPiece lp bank p)
    (finfo : Word) (l : List (Nat × Nat)) :
    ∃ t, s.readAlike t lp ∧ ∀ d u, (readCached lp false (laterPiece finfo l) l).run t = .ok d u →
      (readCached lp false finfo (p :: l)).run s = .ok (s.lpBytes lp p.1 p.2 ++ d) u := by
  have hcount := readAlike_countMisses s lp (p.1 / 256) (p.1 % 256) p.2
  obtain ⟨t, hread, ht⟩ := readLine_of_holdsPiece (readAlike_holdsPiece hcount hp)
  have hst := readAlike_trans hcount ht
  refine ⟨_, readAlike_trans hst (readAlike_laneRead t lp p.1 (t.lpBytes lp p.1 p.2)), fun d u hrest => ?_⟩
  rw [readCached, run_bind_of_ok (act_run_get s)]
  simp only [hread, Bool.false_eq_true, if_false]
  rw [run_bind_of_ok (act_run_set s _), run_bind_of_ok hrest, readAlike_lpBytes hst]
  rfl

/-- A load of held pieces answers the bytes of each. -/
theorem readCached_of_holdsPiece {lp : LpId} {bank : BankNo} (finfo : Word) (l : List (Nat × Nat)) (s : State)
    (hl : ∀ p ∈ l, s.holdsPiece lp bank p) :
    ∃ t, (readCached lp false finfo l).run s = .ok ((l.map (fun p => s.lpBytes lp p.1 p.2)).flatten) t ∧ s.readAlike t lp := by
  induction l generalizing s finfo with
  | nil => exact ⟨s, rfl, readAlike_refl s lp⟩
  | cons p r ih =>
    obtain ⟨t, hst, hrun⟩ := readCached_cons_of_holdsPiece (hl p List.mem_cons_self) finfo r
    obtain ⟨u, hrest, htu⟩ := ih (laterPiece finfo r) t
      (fun q hq => readAlike_holdsPiece hst (hl q (List.mem_cons_of_mem _ hq)))
    simp only [readAlike_lpBytes hst] at hrest
    exact ⟨u, hrun _ u hrest, readAlike_trans hst htu⟩

/-! What comes before and after the pieces are read. -/

theorem firstPiece_eq_none {bad : Nat → Bool} {l : List (Nat × Nat)} (h : ∀ p ∈ l, bad p.1 = false) (finfo : Word) :
    firstPiece bad finfo l = none := by
  induction l generalizing finfo with
  | nil => rfl
  | cons p r ih =>
    simp only [firstPiece, h p List.mem_cons_self, Bool.false_eq_true, if_false]
    exact ih (fun q hq => h q (List.mem_cons_of_mem _ hq)) _

theorem missesOf_of_holdsPiece {s : State} {lp : LpId} {bank : BankNo} {l : List (Nat × Nat)}
    (hl : ∀ p ∈ l, s.holdsPiece lp bank p) (i : Nat) : s.missesOf lp i l = [] := by
  induction l generalizing i with
  | nil => rfl
  | cons p r ih =>
    obtain ⟨-, -, hhit, -⟩ := hl p List.mem_cons_self
    simp only [State.missesOf, hhit, Bool.and_false, Bool.false_eq_true, if_false]
    exact ih (fun q hq => hl q (List.mem_cons_of_mem _ hq)) _

/-- Without a miss nothing trains the stride detectors, so nothing is prefetched (R241). -/
theorem trainMisses_nil (s : State) (lp : LpId) (bank : BankNo) (o : Word) : s.trainMisses lp bank o [] = s := by
  simp [State.trainMisses]

/-- A formed read of held pieces is answered, with the LP's own stores in front of memory, and changes nothing a load reads. -/
theorem reads_of_holdsPiece {s : State} {lp : LpId} {bank : BankNo} {l : List (Nat × Nat)}
    (hl : ∀ p ∈ l, s.holdsPiece lp bank p) (o finfo : Word) :
    ∃ t, s.reads lp bank o finfo l ((l.map (fun p => s.lpBytes lp p.1 p.2)).flatten) t ∧ s.readAlike t lp := by
  have hgood : s.firstBad ((s.slip lp).b.get bank).dev (s.slip lp).level finfo l = none :=
    firstPiece_eq_none (fun p hp => by simp [(hl p hp).1]) finfo
  cases l with
  | nil =>
    refine ⟨s, ?_, readAlike_refl s lp⟩
    rw [State.reads, readFormed, run_bind_of_ok (act_run_get s)]
    simp only [hgood]
    rfl
  | cons p r =>
    obtain ⟨t, hrun, ht⟩ := readCached_of_holdsPiece finfo (p :: r) s hl
    obtain ⟨hpath, -⟩ := hl p List.mem_cons_self
    refine ⟨t, ?_, ht⟩
    rw [State.reads, readFormed, run_bind_of_ok (act_run_get s)]
    simp only [hgood, hpath, missesOf_of_holdsPiece hl, reduceCtorEq, if_false]
    rw [run_bind_of_ok hrun, run_bind_of_ok (act_run_modify t _), trainMisses_nil]
    rfl

/-! The bytes an LP reads, by store (R289). -/

theorem lpBytes_getD (s : State) (lp : LpId) {a n i : Nat} (hi : i < n) :
    (s.lpBytes lp a n).getD i 0 = forward (s.lpv lp).gangway (a + i) (s.byteAt (a + i)) := by
  simp [State.lpBytes, hi]

/-- The youngest store gives the bytes it covers; every other byte is as the older stores leave it. -/
theorem forward_append_singleton (l : List GStore) (st : GStore) (a : Nat) (d : Byte) :
    forward (l ++ [st]) a d =
      if st.addr ≤ a ∧ a < st.addr + st.bytes.length then st.bytes.getD (a - st.addr) 0 else forward l a d := by
  simp only [forward, List.foldl_append, List.foldl_cons, List.foldl_nil]
  split
  · have hin : a - st.addr < st.bytes.length := by omega
    simp only [List.getD_eq_getElem?_getD, List.getElem?_eq_getElem hin, Option.getD_some]
  · rfl

/-- Settles O8: a load of held pieces hits piece by piece and leaves copies, memory and stores as they were; the youngest buffered
store is the last one `forward` applies. -/
theorem readsGiveOwnStoresThenMemory : Obligations.ReadsGiveOwnStoresThenMemory := by
  constructor
  · intro s lp bank o finfo l hl
    obtain ⟨t, hreads, h⟩ := reads_of_holdsPiece hl o finfo
    exact ⟨t, hreads, readAlike_mem h, h.dir, readAlike_slip h lp, h.gangway⟩
  · intro s t lp st hgangway hbyte a n i hi
    rw [lpBytes_getD t lp hi, lpBytes_getD s lp hi, hgangway, hbyte, forward_append_singleton]

end Sys2Proof.Machine
end
